-- ==== Sys2Proof/Word.lean ====
section
/-! DEFINITION. The three word types of the block.
Every value of the block is an unsigned bit vector (00_scope.md R6, A5 notation). -/

namespace Sys2Proof

/-- One byte of a request's data (30_encoding.md R70). -/
abbrev Byte := BitVec 8

/-- One 32-bit half of a 64-bit register, the unit of storage (00_scope.md R6, R12). -/
abbrev Word := BitVec 32

/-- A 64-bit logical value: an assembled register, the accumulator, a wall-clock sample. -/
abbrev DWord := BitVec 64

end Sys2Proof
end

