-- ==== Sys2Proof/Config.lean ====
section
/-! DEFINITION. The implementation parameters of 00_scope.md R7, and the free values.
Every one is an uninterpreted constant: R7 says that none may be given a value beyond the constraint stated. -/

namespace Sys2Proof

/-- `BASE`, the bus address of offset 0x00: OPEN (00_scope.md R7, 92 D3). -/
opaque Config.base : Nat

/-- How many bytes the device window has beyond the fields' `[0x00, 0x20)`: `WINDOW_SIZE` is OPEN with the one
constraint `WINDOW_SIZE >= 0x20` (00_scope.md R7, 20_memory.md R51, 92 D2). -/
opaque Config.windowExtra : Nat

/-- `RESET_MTIME`: any 64-bit value (10_state.md R36, 92 D4). -/
opaque Config.resetMtime : DWord

/-- `RESET_MTIMECMP`: any 64-bit value (10_state.md R36, 92 D4). -/
opaque Config.resetMtimecmp : DWord

/-- `RESET_DIVISOR`: any 64-bit value (10_state.md R36, 92 D4). -/
opaque Config.resetDivisor : DWord

/-- The attached core's global interrupt-enable flag when the device is constructed: the device does not reset it
(10_state.md R37). DESIGN CHOICE (log 5): uninterpreted. -/
opaque Config.initialGie : Bool

/-- The attached core's timer-cause enable flag when the device is constructed (10_state.md R37).
DESIGN CHOICE (log 5): uninterpreted. -/
opaque Config.initialTie : Bool

/-- The attached core's timer-interrupt-pending flag when the device is constructed (10_state.md R37).
DESIGN CHOICE (log 5): uninterpreted. -/
opaque Config.initialTip : Bool

/-- `WallClock`: what the system clock would answer to the `n`-th sample the machine draws, in nanoseconds since an
implementation-defined epoch. A free value (10_state.md R29, 92 D11, log 6); `State.clockSample` puts R29's
constraint on it. -/
opaque Config.wallClock : Nat → DWord

end Sys2Proof
end

