-- ==== Sys2Proof/Syntax.lean ====
section
/-! DEFINITION. The requests the block accepts, the fields and decode classes of its register file, and its
instructions: one constructor of `Instr` for each of the 19 rows of spec/opcode_table.json. -/

namespace Sys2Proof

/-- The six 32-bit registers of the register file (10_state.md R20). -/
inductive Half where
  | mtimeLo
  | mtimeHi
  | mtimecmpLo
  | mtimecmpHi
  | divLo
  | divHi
  deriving DecidableEq, Repr

/-- A field of the register layout: one of the six halves, or the wall-clock snapshot (20_memory.md R52). -/
inductive Field where
  | half (h : Half)
  | wallclock
  deriving DecidableEq, Repr

/-- What the decode of a LOAD or a STORE answers (30_encoding.md R72). -/
inductive DecodeClass where
  | rejectZeroLen
  | rejectUnattached
  | field (f : Field)
  | unmappedInWindow
  | outOfWindow
  deriving DecidableEq, Repr

/-- A request at the device's interface. The block accepts the first four kinds (30_encoding.md R70); the other two
are what the spec says it has no operation for, so that the decoder can reject them by name. -/
inductive Request where
  /-- `LOAD(off, len)`. -/
  | load (off len : Nat)
  /-- `STORE(off, len, wdata)`, `wdata[i]` being the byte for offset `off + i`. -/
  | store (off len : Nat) (wdata : List Byte)
  /-- `TICK`. -/
  | tick
  /-- `ATTACH(core_present)`: whether processor instance index 0 exists (43_attach.md R160). -/
  | attach (corePresent : Bool)
  /-- An instruction fetch aimed at the window: not an operation of the device (20_memory.md R65). -/
  | fetch (off len : Nat)
  /-- A request of any other kind, such as a fence or an atomic operation: the bus interface is exactly `load` and
  `store` (20_memory.md R64). -/
  | foreign (kind : Nat)
  deriving DecidableEq, Repr

/-- One thing that happens at the device's interface, in the one total order of 20_memory.md R62. -/
inductive Input where
  /-- The bus master or the host loop issues a request (00_scope.md R11 (a), (b)). -/
  | request (r : Request)
  /-- The attached core sets its three flags between device operations: the line `CORE GIE=g TIE=t TIP=p` of
  30_encoding.md R79 (20_memory.md R63, 60_exceptions.md R180). -/
  | core (gie tie tip : Bool)
  deriving DecidableEq, Repr

/-- The outputs of the block to its caller (10_state.md R31, 60_exceptions.md R170). -/
inductive Response where
  /-- `OK` of a STORE or an ATTACH. -/
  | ok
  /-- `OK(rdata)` of a LOAD, in address order. -/
  | data (rdata : List Byte)
  /-- `FAIL`, an "unhandled access". -/
  | fail
  /-- The advisory boolean of a TICK. -/
  | irq (active : Bool)
  /-- `Fatal(NoCore)` of an ATTACH with no core (43_attach.md R161). -/
  | fatalNoCore
  deriving DecidableEq, Repr

/-- The instructions: the rows of spec/opcode_table.json, with the operands the rows name. -/
inductive Instr where
  /-- LOAD.MTIME_LO (40_bus_load.md R101). -/
  | loadMtimeLo (off len : Nat)
  /-- LOAD.MTIME_HI (40_bus_load.md R102). -/
  | loadMtimeHi (off len : Nat)
  /-- LOAD.MTIMECMP_LO (40_bus_load.md R103). -/
  | loadMtimecmpLo (off len : Nat)
  /-- LOAD.MTIMECMP_HI (40_bus_load.md R104). -/
  | loadMtimecmpHi (off len : Nat)
  /-- LOAD.DIV_LO (40_bus_load.md R105). -/
  | loadDivLo (off len : Nat)
  /-- LOAD.DIV_HI (40_bus_load.md R106). -/
  | loadDivHi (off len : Nat)
  /-- LOAD.WALLCLOCK (40_bus_load.md R107). -/
  | loadWallclock (off len : Nat)
  /-- LOAD.FAIL (40_bus_load.md R108). -/
  | loadFail (off len : Nat)
  /-- STORE.MTIME_LO (41_bus_store.md R121). -/
  | storeMtimeLo (off len : Nat) (wdata : List Byte)
  /-- STORE.MTIME_HI (41_bus_store.md R122). -/
  | storeMtimeHi (off len : Nat) (wdata : List Byte)
  /-- STORE.MTIMECMP_LO (41_bus_store.md R123). -/
  | storeMtimecmpLo (off len : Nat) (wdata : List Byte)
  /-- STORE.MTIMECMP_HI (41_bus_store.md R124). -/
  | storeMtimecmpHi (off len : Nat) (wdata : List Byte)
  /-- STORE.DIV_LO (41_bus_store.md R125). -/
  | storeDivLo (off len : Nat) (wdata : List Byte)
  /-- STORE.DIV_HI (41_bus_store.md R126). -/
  | storeDivHi (off len : Nat) (wdata : List Byte)
  /-- STORE.WALLCLOCK (41_bus_store.md R127). -/
  | storeWallclock (off len : Nat) (wdata : List Byte)
  /-- STORE.NOP (41_bus_store.md R128). -/
  | storeNop (off len : Nat) (wdata : List Byte)
  /-- STORE.FAIL (41_bus_store.md R129). -/
  | storeFail (off len : Nat) (wdata : List Byte)
  /-- TICK (42_tick_engine.md R140). -/
  | tick
  /-- ATTACH (43_attach.md R160). -/
  | attach (corePresent : Bool)
  deriving DecidableEq, Repr

/-- Why the decoder reads no instruction. -/
inductive DecodeError where
  /-- A STORE whose `wdata` has not `len` bytes: not a request tuple of 30_encoding.md R70. -/
  | wdataLength
  /-- An instruction fetch aimed at the window (20_memory.md R65). -/
  | fetchFromWindow
  /-- A kind of request the block does not accept (30_encoding.md R70, R78). -/
  | unknownKind (kind : Nat)
  /-- Bytes that end before the request they begin does (of the model's own byte form only, log 8). -/
  | truncated
  deriving DecidableEq, Repr

end Sys2Proof
end

