-- ==== Sys2Proof/Machine/Window.lean ====
section
/-! DEFINITION. The register window: its size, the spans of its fields, and the containment test. -/

namespace Sys2Proof.Machine

/-- `WINDOW_SIZE`, any size of at least 0x20 bytes (20_memory.md R51, 00_scope.md R7). -/
def windowSize : Nat := Config.windowExtra + 0x20

/-- `contained(off, len, s, w)`: the request lies wholly inside the span `[s, s + w)` (30_encoding.md R71). -/
def contained (off len s w : Nat) : Bool :=
  decide (1 ≤ len) && decide (s ≤ off) && decide (off + len ≤ s + w)

/-- `inWindow(off, len)`, the sum being exact (30_encoding.md R71, R80). -/
def inWindow (off len : Nat) : Bool :=
  decide (off + len ≤ windowSize)

/-- The span start and width of a field (20_memory.md R52). -/
def fieldSpan : Field → Nat × Nat
  | .half .mtimeLo => (0x00, 4)
  | .half .mtimeHi => (0x04, 4)
  | .half .mtimecmpLo => (0x08, 4)
  | .half .mtimecmpHi => (0x0C, 4)
  | .half .divLo => (0x10, 4)
  | .half .divHi => (0x14, 4)
  | .wallclock => (0x18, 8)

/-- The fields in the order the decode tests them (30_encoding.md R72). -/
def fields : List Field :=
  [.half .mtimeLo, .half .mtimeHi, .half .mtimecmpLo, .half .mtimecmpHi, .half .divLo, .half .divHi, .wallclock]

/-- The request is contained in the span of the field. -/
def inField (f : Field) (off len : Nat) : Bool :=
  contained off len (fieldSpan f).1 (fieldSpan f).2

/-- The request is contained in some field's span. -/
def inSomeField (off len : Nat) : Bool :=
  fields.any fun f => inField f off len

end Sys2Proof.Machine
end

