-- ==== Sys2Proof/WellFormed.lean ====
section
/-! DEFINITION. Which instructions are well formed: the operand conditions of each opcode-table row that do not
depend on the state, and the length of a STORE's data (30_encoding.md R70). -/

namespace Sys2Proof

open Sys2Proof.Machine

/-- The operand conditions of the row (the `Operands` of 40_bus_load.md R101 to R108, 41_bus_store.md R121 to R129).
A failing row takes any offset and length: whether it is the row of its request depends on the state too
(`Instr.selected`). -/
def Instr.wellFormed : Instr → Bool
  | .loadMtimeLo off len => inField (.half .mtimeLo) off len
  | .loadMtimeHi off len => inField (.half .mtimeHi) off len
  | .loadMtimecmpLo off len => inField (.half .mtimecmpLo) off len
  | .loadMtimecmpHi off len => inField (.half .mtimecmpHi) off len
  | .loadDivLo off len => inField (.half .divLo) off len
  | .loadDivHi off len => inField (.half .divHi) off len
  | .loadWallclock off len => inField .wallclock off len
  | .loadFail _ _ => true
  | .storeMtimeLo off len wdata => inField (.half .mtimeLo) off len && wdata.length == len
  | .storeMtimeHi off len wdata => inField (.half .mtimeHi) off len && wdata.length == len
  | .storeMtimecmpLo off len wdata => inField (.half .mtimecmpLo) off len && wdata.length == len
  | .storeMtimecmpHi off len wdata => inField (.half .mtimecmpHi) off len && wdata.length == len
  | .storeDivLo off len wdata => inField (.half .divLo) off len && wdata.length == len
  | .storeDivHi off len wdata => inField (.half .divHi) off len && wdata.length == len
  | .storeWallclock off len wdata => inField .wallclock off len && wdata.length == len
  | .storeNop off len wdata =>
    decide (1 ≤ len) && inWindow off len && !inSomeField off len && wdata.length == len
  | .storeFail _ len wdata => wdata.length == len
  | .tick => true
  | .attach _ => true

end Sys2Proof
end

