-- ==== Sys2Proof/Decode.lean ====
section
/-! DEFINITION. The decoder of 30_encoding.md, total on every request, and the encoder back to request tuples.
The spec's encoding IS the request tuple (30_encoding.md R70, R79: there is no bit-level word). The byte form at the end is
the model's own (log 8), for the host's two functions on words. -/

namespace Sys2Proof

open Sys2Proof.Machine

/-- `decode(kind, off, len)` for LOAD and STORE, tested in the spec's order on the state before the request
(30_encoding.md R72). -/
def classify (attached : Bool) (off len : Nat) : DecodeClass :=
  if len = 0 then .rejectZeroLen
  else if attached = false then .rejectUnattached
  else if contained off len 0x00 4 then .field (.half .mtimeLo)
  else if contained off len 0x04 4 then .field (.half .mtimeHi)
  else if contained off len 0x08 4 then .field (.half .mtimecmpLo)
  else if contained off len 0x0C 4 then .field (.half .mtimecmpHi)
  else if contained off len 0x10 4 then .field (.half .divLo)
  else if contained off len 0x14 4 then .field (.half .divHi)
  else if contained off len 0x18 8 then .field .wallclock
  else if inWindow off len then .unmappedInWindow
  else .outOfWindow

/-- The LOAD row of a decode class (40_bus_load.md R100). -/
def loadRow (off len : Nat) : DecodeClass → Instr
  | .field (.half .mtimeLo) => .loadMtimeLo off len
  | .field (.half .mtimeHi) => .loadMtimeHi off len
  | .field (.half .mtimecmpLo) => .loadMtimecmpLo off len
  | .field (.half .mtimecmpHi) => .loadMtimecmpHi off len
  | .field (.half .divLo) => .loadDivLo off len
  | .field (.half .divHi) => .loadDivHi off len
  | .field .wallclock => .loadWallclock off len
  | .rejectZeroLen => .loadFail off len
  | .rejectUnattached => .loadFail off len
  | .unmappedInWindow => .loadFail off len
  | .outOfWindow => .loadFail off len

/-- The STORE row of a decode class (41_bus_store.md R120). -/
def storeRow (off len : Nat) (wdata : List Byte) : DecodeClass → Instr
  | .field (.half .mtimeLo) => .storeMtimeLo off len wdata
  | .field (.half .mtimeHi) => .storeMtimeHi off len wdata
  | .field (.half .mtimecmpLo) => .storeMtimecmpLo off len wdata
  | .field (.half .mtimecmpHi) => .storeMtimecmpHi off len wdata
  | .field (.half .divLo) => .storeDivLo off len wdata
  | .field (.half .divHi) => .storeDivHi off len wdata
  | .field .wallclock => .storeWallclock off len wdata
  | .unmappedInWindow => .storeNop off len wdata
  | .rejectZeroLen => .storeFail off len wdata
  | .rejectUnattached => .storeFail off len wdata
  | .outOfWindow => .storeFail off len wdata

/-- The instruction a request is, in a state with that `attached` flag (30_encoding.md R70, R72). -/
def decode (attached : Bool) : Request → Except DecodeError Instr
  | .load off len => .ok (loadRow off len (classify attached off len))
  | .store off len wdata =>
    if wdata.length = len then .ok (storeRow off len wdata (classify attached off len)) else .error .wdataLength
  | .tick => .ok .tick
  | .attach corePresent => .ok (.attach corePresent)
  | .fetch _ _ => .error .fetchFromWindow
  | .foreign kind => .error (.unknownKind kind)

/-- The `match` condition of the instruction's row in spec/opcode_table.json, row by row and independent of
`classify`, in a state with that `attached` flag. -/
def Instr.selected (attached : Bool) : Instr → Bool
  | .loadMtimeLo off len => attached && contained off len 0x00 4
  | .loadMtimeHi off len => attached && contained off len 0x04 4
  | .loadMtimecmpLo off len => attached && contained off len 0x08 4
  | .loadMtimecmpHi off len => attached && contained off len 0x0C 4
  | .loadDivLo off len => attached && contained off len 0x10 4
  | .loadDivHi off len => attached && contained off len 0x14 4
  | .loadWallclock off len => attached && contained off len 0x18 8
  | .loadFail off len => len == 0 || !attached || !inSomeField off len
  | .storeMtimeLo off len _ => attached && contained off len 0x00 4
  | .storeMtimeHi off len _ => attached && contained off len 0x04 4
  | .storeMtimecmpLo off len _ => attached && contained off len 0x08 4
  | .storeMtimecmpHi off len _ => attached && contained off len 0x0C 4
  | .storeDivLo off len _ => attached && contained off len 0x10 4
  | .storeDivHi off len _ => attached && contained off len 0x14 4
  | .storeWallclock off len _ => attached && contained off len 0x18 8
  | .storeNop off len _ => attached && decide (1 ≤ len) && inWindow off len && !inSomeField off len
  | .storeFail off len _ => len == 0 || !attached || (!inWindow off len && !inSomeField off len)
  | .tick => true
  | .attach _ => true

/-- The request tuple of an instruction (30_encoding.md R70, R79). -/
def encode : Instr → Request
  | .loadMtimeLo off len => .load off len
  | .loadMtimeHi off len => .load off len
  | .loadMtimecmpLo off len => .load off len
  | .loadMtimecmpHi off len => .load off len
  | .loadDivLo off len => .load off len
  | .loadDivHi off len => .load off len
  | .loadWallclock off len => .load off len
  | .loadFail off len => .load off len
  | .storeMtimeLo off len wdata => .store off len wdata
  | .storeMtimeHi off len wdata => .store off len wdata
  | .storeMtimecmpLo off len wdata => .store off len wdata
  | .storeMtimecmpHi off len wdata => .store off len wdata
  | .storeDivLo off len wdata => .store off len wdata
  | .storeDivHi off len wdata => .store off len wdata
  | .storeWallclock off len wdata => .store off len wdata
  | .storeNop off len wdata => .store off len wdata
  | .storeFail off len wdata => .store off len wdata
  | .tick => .tick
  | .attach corePresent => .attach corePresent

/-! ### Requests as the core's accesses reach the device -/

/-- The `n` low bytes of a value, least significant first: `bytes[i] = byte_i(v)` (00_scope.md A5). -/
def bytesOfNat (n v : Nat) : List Byte :=
  (List.range n).map fun i => BitVec.ofNat 8 (v >>> (8 * i))

/-- A core's `MemRead(addr, n)` that the upstream router sends to this device (00_scope.md A5; BASE is 92 D3).
An address below BASE is never routed here. -/
def Request.ofMemRead (addr n : Nat) : Option Request :=
  if Config.base ≤ addr then some (.load (addr - Config.base) n) else none

/-- A core's `MemWrite(addr, n, v)` that the upstream router sends to this device (00_scope.md A5). -/
def Request.ofMemWrite (addr n v : Nat) : Option Request :=
  if Config.base ≤ addr then some (.store (addr - Config.base) n (bytesOfNat n v)) else none

/-- The shorthand `ST32 off, V` (30_encoding.md R79). -/
def Request.st32 (off : Nat) (v : Word) : Request :=
  .store off 4 (bytesOfNat 4 v.toNat)

/-! ### The model's own byte form of a request

DESIGN CHOICE (log 8): the spec gives requests no bits. Byte 0 is the kind (0 LOAD, 1 STORE, 2 TICK, 3 ATTACH with a
core, 4 ATTACH with none). For LOAD and STORE byte 1 is the length and bytes 2 to 9 the offset, least significant
first; a STORE's data bytes follow. -/

/-- The value of bytes, least significant first. -/
def natOfBytes : List Byte → Nat
  | [] => 0
  | b :: bs => b.toNat + 256 * natOfBytes bs

/-- The first request of a list of bytes and the bytes after it, or the name of what is wrong. -/
def decodeBytes : List Byte → Except DecodeError (Request × List Byte)
  | [] => .error .truncated
  | kind :: rest =>
    if kind = 2#8 then .ok (.tick, rest)
    else if kind = 3#8 then .ok (.attach true, rest)
    else if kind = 4#8 then .ok (.attach false, rest)
    else if kind = 0#8 then
      match rest with
      | len :: more =>
        if more.length < 8 then .error .truncated
        else .ok (.load (natOfBytes (more.take 8)) len.toNat, more.drop 8)
      | [] => .error .truncated
    else if kind = 1#8 then
      match rest with
      | len :: more =>
        if more.length < 8 + len.toNat then .error .truncated
        else .ok (.store (natOfBytes (more.take 8)) len.toNat ((more.drop 8).take len.toNat),
          more.drop (8 + len.toNat))
      | [] => .error .truncated
    else .error (.unknownKind kind.toNat)

/-- The byte form of a request. It holds every operand of a request with `off < 2^64` and `len < 256`. -/
def encodeBytes : Request → List Byte
  | .load off len => 0#8 :: BitVec.ofNat 8 len :: bytesOfNat 8 off
  | .store off len wdata => 1#8 :: BitVec.ofNat 8 len :: (bytesOfNat 8 off ++ wdata)
  | .tick => [2#8]
  | .attach true => [3#8]
  | .attach false => [4#8]
  | .fetch _ _ => [5#8]
  | .foreign kind => [BitVec.ofNat 8 kind]

/-- The longest byte form: a STORE of 255 bytes. -/
def longestForm : Nat := 265

/-- The bytes of a word of `nbits` bits, bit 0 the least significant bit of the first byte; all higher bits are 0. -/
def wordBytes (nbits w : Nat) : List Byte :=
  bytesOfNat longestForm (w % 2 ^ nbits)

/-- The request whose byte form is the word. -/
def wordRequest (nbits w : Nat) : Request :=
  match decodeBytes (wordBytes nbits w) with
  | .ok (r, _) => r
  | .error _ => .foreign (w % 2 ^ nbits % 256)

/-- The instruction the decoder reads from a word, on an attached device. -/
def decodeTableWord (nbits w : Nat) : Option Instr :=
  match decode true (wordRequest nbits w) with
  | .ok i => some i
  | .error _ => none

end Sys2Proof
end

