-- ==== Sys2Proof/Machine/Flags.lean ====
section
/-! DEFINITION. The comparator and the interrupt assertion controller: the block has no flags of its own (10_state.md R31), and
these are the computations of the core's pending flag and of the advisory boolean. -/

namespace Sys2Proof.Machine

/-- The comparator: `M >= C`, unsigned (42_tick_engine.md R146). -/
def conditionHolds (m c : DWord) : Bool :=
  decide (c ≤ m)

/-- `core.TIP` after a TICK with nonzero divisor: assert (R147), hold (R148) or clear (R149 of 42_tick_engine.md). -/
def pendingAfter (condition gie tie tip : Bool) : Bool :=
  if condition then (if gie && tie then true else tip) else false

/-- The advisory boolean of a TICK with nonzero divisor: true exactly where it asserts (42_tick_engine.md R150). -/
def advisory (condition gie tie : Bool) : Bool :=
  condition && gie && tie

end Sys2Proof.Machine
end

