-- ==== Sys2Proof/Machine/Operands.lean ====
section
/-! DEFINITION. Operand forms: bytes of a value, read-data encode, byte-enable write decode, and the assembly of a 64-bit
value from its halves. Little-endian throughout (20_memory.md R54). -/

namespace Sys2Proof.Machine

/-- `byte_j(v) = v[8j+7:8j]` (00_scope.md A5). -/
def byteOf (j : Nat) (v : BitVec n) : Byte :=
  v.extractLsb' (8 * j) 8

/-- `rdata[i] = byte_(k+i)(F)` for `i` in `0..len-1` (30_encoding.md R74). -/
def readBytes (v : BitVec n) (k len : Nat) : List Byte :=
  (List.range len).map fun i => byteOf (k + i) v

/-- The byte enable of lane `j`: `be[j] = (k <= j < k + len)` (30_encoding.md R73). -/
def laneEnabled (k len j : Nat) : Bool :=
  decide (k ≤ j) && decide (j < k + len)

/-- The new byte of lane `j` of half `h`: the input byte `wdata[j - k]` where the lane is enabled, else the old byte
(30_encoding.md R73). Where `wdata` has `len` bytes an enabled lane always has its input byte. -/
def newLane (h : Word) (k len : Nat) (wdata : List Byte) (j : Nat) : Byte :=
  if laneEnabled k len j then wdata.getD (j - k) 0 else byteOf j h

/-- The new value of a half after a STORE at byte offset `k` (30_encoding.md R73). -/
def writeLanes (h : Word) (k len : Nat) (wdata : List Byte) : Word :=
  newLane h k len wdata 3 ++ newLane h k len wdata 2 ++ newLane h k len wdata 1 ++ newLane h k len wdata 0

/-- `hi ++ lo`, the high half in the upper bits (30_encoding.md R75, 10_state.md R28). -/
def assemble (hi lo : Word) : DWord :=
  hi ++ lo

/-- `V[31:0]` (30_encoding.md R75). -/
def loHalf (v : DWord) : Word :=
  v.extractLsb' 0 32

/-- `V[63:32]` (30_encoding.md R75). -/
def hiHalf (v : DWord) : Word :=
  v.extractLsb' 32 32

end Sys2Proof.Machine
end

