-- ==== Sys2Proof/Machine/State.lean ====
section
/-! DEFINITION. The state of the machine: the block's state record (10_state.md), the collaborator's three flags, and the
model's own interface fields; its faults and refusals; and the state after construction. -/

namespace Sys2Proof.Machine

/-- Why the machine stops with a fault: the three model faults of 60_exceptions.md R172. -/
inductive Fault where
  /-- Raised by the step and by every instruction after the fatal stop of an ATTACH with no core: no operation is
  admitted any more (43_attach.md R161, 60_exceptions.md R172). Safe: the spec ends the run here. -/
  | noCore
  /-- Raised by TICK while no core is attached (42_tick_engine.md R152). Safe: the spec asks for the fault. -/
  | tickUnattached
  /-- Raised by ATTACH while a core is attached (43_attach.md R163). Safe: the spec asks for the fault. -/
  | attachTwice
  deriving DecidableEq, Repr

/-- Why something at the interface is given no meaning. -/
inductive Refusal where
  /-- An instruction the model does not give its meaning yet; raised by a rejected arm of `exec` only, and no arm is
  rejected. Safe. -/
  | notModelled (mnemonic : String)
  /-- Raised by the step for an instruction fetch aimed at the window, which the spec says a model refuses
  (20_memory.md R65). Safe. -/
  | fetchFromWindow
  /-- Raised by the step for a request of a kind the block does not accept (30_encoding.md R70, 20_memory.md R64). Safe. -/
  | unknownRequestKind (kind : Nat)
  /-- Raised by the step for a STORE tuple whose data has not the stated length, which is no request of
  30_encoding.md R70. Safe. -/
  | malformedStore
  /-- Raised by `exec` alone, for a LOAD or STORE row applied to operands that another row is selected for; the step
  decodes first and never raises it (30_encoding.md R72). Safe. -/
  | rowNotSelected
  deriving DecidableEq, Repr

/-- The state of the machine. -/
structure State where
  /-- mtime, low half (10_state.md R21; offset 0x00). -/
  mtimeLo : Word
  /-- mtime, high half (10_state.md R21; offset 0x04). -/
  mtimeHi : Word
  /-- mtimecmp, low half (10_state.md R22; offset 0x08). -/
  mtimecmpLo : Word
  /-- mtimecmp, high half (10_state.md R22; offset 0x0C). -/
  mtimecmpHi : Word
  /-- prescaler divisor, low half (10_state.md R23; offset 0x10). -/
  divLo : Word
  /-- prescaler divisor, high half (10_state.md R23; offset 0x14). -/
  divHi : Word
  /-- the prescaler accumulator, reached by no offset (10_state.md R24). -/
  acc : DWord
  /-- whether the device is bound to core 0 (10_state.md R26). -/
  attached : Bool
  /-- the fatal mark of a failed ATTACH (10_state.md R39). -/
  fatal : Bool
  /-- the last wall-clock sample (10_state.md R29). -/
  wcLast : Option DWord
  /-- `core.GIE`, the attached core's global interrupt-enable flag (10_state.md R27). -/
  coreGie : Bool
  /-- `core.TIE`, the attached core's timer-cause enable flag (10_state.md R27). -/
  coreTie : Bool
  /-- `core.TIP`, the attached core's timer-interrupt-pending flag (10_state.md R27). -/
  coreTip : Bool
  /-- the model's own: what the host, the bus master and the core will do, in their one total order, the next first
  (20_memory.md R62, log 1). -/
  inputs : List Input
  /-- the model's own: the response of the last operation (10_state.md R31, log 2). -/
  response : Option Response
  /-- the model's own: how many wall-clock samples have been drawn; the step reads it to draw the next (log 6). -/
  clockDraws : Nat
  deriving DecidableEq, Repr

/-- Construction of the device instance, the block's only reset (70_reset_and_hazards.md R200, 10_state.md R34 to R40).
The core's flags are as the core has them (R37, log 5); no input is pending. -/
def State.reset : State where
  mtimeLo := Config.resetMtime.extractLsb' 0 32
  mtimeHi := Config.resetMtime.extractLsb' 32 32
  mtimecmpLo := Config.resetMtimecmp.extractLsb' 0 32
  mtimecmpHi := Config.resetMtimecmp.extractLsb' 32 32
  divLo := Config.resetDivisor.extractLsb' 0 32
  divHi := Config.resetDivisor.extractLsb' 32 32
  acc := 0
  attached := false
  fatal := false
  wcLast := none
  coreGie := Config.initialGie
  coreTie := Config.initialTie
  coreTip := Config.initialTip
  inputs := []
  response := none
  clockDraws := 0

end Sys2Proof.Machine
end

