-- ==== Sys2Proof/Machine/Ops.lean ====
section
/-! DEFINITION. The named operations over the state: register accessors, the wall-clock draw, the responses, the admission of a
request, the fatal stop, the prescaler and the interrupt controller, and the inputs from outside.
The block takes no trap and returns from none (60_exceptions.md R180, R181); its one exception is the fatal stop. -/

namespace Sys2Proof.Machine

/-! ### Registers -/

/-- `MTIME = mtime_hi ++ mtime_lo` (30_encoding.md R75). -/
def State.mtime (s : State) : DWord := assemble s.mtimeHi s.mtimeLo

/-- `MTIMECMP = mtimecmp_hi ++ mtimecmp_lo` (30_encoding.md R75). -/
def State.mtimecmp (s : State) : DWord := assemble s.mtimecmpHi s.mtimecmpLo

/-- `DIV = div_hi ++ div_lo` (30_encoding.md R75). -/
def State.divisor (s : State) : DWord := assemble s.divHi s.divLo

/-- Write a 64-bit value to the mtime pair, both halves in one step (30_encoding.md R75, 42_tick_engine.md R144). -/
def State.setMtime (s : State) (v : DWord) : State :=
  { s with mtimeLo := loHalf v, mtimeHi := hiHalf v }

/-- The value of a register of the register file (10_state.md R20). -/
def State.half (s : State) : Half → Word
  | .mtimeLo => s.mtimeLo
  | .mtimeHi => s.mtimeHi
  | .mtimecmpLo => s.mtimecmpLo
  | .mtimecmpHi => s.mtimecmpHi
  | .divLo => s.divLo
  | .divHi => s.divHi

/-- Write a register of the register file, leaving the other five (10_state.md R20). -/
def State.setHalf (s : State) (h : Half) (v : Word) : State :=
  match h with
  | .mtimeLo => { s with mtimeLo := v }
  | .mtimeHi => { s with mtimeHi := v }
  | .mtimecmpLo => { s with mtimecmpLo := v }
  | .mtimecmpHi => { s with mtimecmpHi := v }
  | .divLo => { s with divLo := v }
  | .divHi => { s with divHi := v }

/-- The byte of the register file at an offset; the wall-clock field has no storage, and the rest of the window no
field (20_memory.md R52 to R54, 10_state.md R25). -/
def State.byteAt (s : State) (off : Nat) : Option Byte :=
  if off < 0x04 then some (byteOf off s.mtimeLo)
  else if off < 0x08 then some (byteOf (off - 0x04) s.mtimeHi)
  else if off < 0x0C then some (byteOf (off - 0x08) s.mtimecmpLo)
  else if off < 0x10 then some (byteOf (off - 0x0C) s.mtimecmpHi)
  else if off < 0x14 then some (byteOf (off - 0x10) s.divLo)
  else if off < 0x18 then some (byteOf (off - 0x14) s.divHi)
  else none

/-! ### The wall clock -/

/-- The sample the next draw takes: the clock's answer, never below the last sample (10_state.md R29). -/
def State.clockSample (s : State) : DWord :=
  match s.wcLast with
  | none => Config.wallClock s.clockDraws
  | some p => if p ≤ Config.wallClock s.clockDraws then Config.wallClock s.clockDraws else p

/-- `W <- draw WallClock(); wc_last <- some W` (40_bus_load.md R107). -/
def State.drawClock (s : State) : State :=
  { s with wcLast := some s.clockSample, clockDraws := s.clockDraws + 1 }

/-! ### Responses and admission -/

/-- Answer the caller (10_state.md R31). -/
def State.respond (s : State) (r : Response) : State :=
  { s with response := some r }

/-- After the fatal stop no operation is admitted (60_exceptions.md R172). -/
def State.unlessFatal (s : State) (k : Host.Outcome State Fault Refusal) : Host.Outcome State Fault Refusal :=
  if s.fatal then .fault .noCore else k

/-- Serve a LOAD or STORE of the row whose operand condition is `rowHolds`: the two rejections come before any field
and change nothing (30_encoding.md R72), then the row answers with `served`. Operands that belong to another row are no
instruction of this one. -/
def State.serve (s : State) (len : Nat) (rowHolds : Bool) (served : State) : Host.Outcome State Fault Refusal :=
  s.unlessFatal (if len = 0 ∨ s.attached = false then .next (s.respond .fail)
    else if rowHolds then .next served else .refused .rowNotSelected)

/-- The answer of a LOAD contained in a half: the requested bytes of its current value (30_encoding.md R74). -/
def State.answerHalf (s : State) (h : Half) (off len : Nat) : State :=
  s.respond (.data (readBytes (s.half h) (off - (fieldSpan (.half h)).1) len))

/-- The answer of a LOAD contained in the wall-clock field: one new sample, recorded, and its requested bytes
(40_bus_load.md R107, 30_encoding.md R76). -/
def State.answerWallclock (s : State) (off len : Nat) : State :=
  s.drawClock.respond (.data (readBytes s.clockSample (off - (fieldSpan .wallclock).1) len))

/-- A STORE contained in a half: its enabled lanes take the input bytes, with no validation (30_encoding.md R73).
Nothing else changes, `core.TIP` included (20_memory.md R60). -/
def State.storeHalf (s : State) (h : Half) (off len : Nat) (wdata : List Byte) : State :=
  (s.setHalf h (writeLanes (s.half h) (off - (fieldSpan (.half h)).1) len wdata)).respond .ok

/-- `raise Fatal(NoCore)`, the block's one exception: the mark is set and is never cleared (43_attach.md R161). -/
def State.raiseFatal (s : State) : State :=
  { s with fatal := true }.respond .fatalNoCore

/-! ### The tick engine -/

/-- The prescaler: the accumulator advances by 1 modulo 2^64, and at equality with the divisor it returns to 0 and the
counter advances by 1 modulo 2^64 (42_tick_engine.md R142 to R144). -/
def State.advance (s : State) : State :=
  if s.acc + 1 = s.divisor then { s with acc := 0 }.setMtime (s.mtime + 1) else { s with acc := s.acc + 1 }

/-- The comparator and the interrupt assertion controller on the updated counter (42_tick_engine.md R145 to R149). -/
def State.control (s : State) : State :=
  { s with coreTip := pendingAfter (conditionHolds s.mtime s.mtimecmp) s.coreGie s.coreTie s.coreTip }.respond
    (.irq (advisory (conditionHolds s.mtime s.mtimecmp) s.coreGie s.coreTie))

/-- The whole TICK on an attached device: nothing but the answer `false` while the divisor is 0
(42_tick_engine.md R140, R141). -/
def State.tick (s : State) : State :=
  if s.divisor = 0 then s.respond (.irq false) else s.advance.control

/-! ### Inputs from outside -/

/-- The attached core sets its flags (20_memory.md R63, 60_exceptions.md R180). -/
def State.coreSets (s : State) (gie tie tip : Bool) : State :=
  { s with coreGie := gie, coreTie := tie, coreTip := tip }

/-- The refusal of a request that is none of the block's instructions. -/
def refusalOf : DecodeError → Refusal
  | .wdataLength => .malformedStore
  | .fetchFromWindow => .fetchFromWindow
  | .unknownKind kind => .unknownRequestKind kind
  | .truncated => .malformedStore

/-- The `attached` flag under which a request's own row can be selected: ATTACH needs an unattached device, every other
request an attached one (30_encoding.md R72, 43_attach.md R163). -/
def attachedFor : Request → Bool
  | .attach _ => false
  | _ => true

end Sys2Proof.Machine
end

