-- ==== Sys2Proof/Machine/Attach.lean ====
section
/-! DEFINITION. The meaning of ATTACH (43_attach.md). -/

namespace Sys2Proof.Machine

/-- ATTACH: a model fault while a core is attached (R163); with core 0 present it binds the device (R160), with none it is
the fatal stop (R161). -/
def execAttach (corePresent : Bool) (s : State) : Host.Outcome State Fault Refusal :=
  s.unlessFatal (if s.attached then .fault .attachTwice
    else .next (if corePresent then { s with attached := true }.respond .ok else s.raiseFatal))

end Sys2Proof.Machine
end

