-- ==== Sys2Proof/Machine/Load.lean ====
section
/-! DEFINITION. The meanings of the LOAD family (40_bus_load.md). Each common part is R100's, in `State.serve`. -/

namespace Sys2Proof.Machine

/-- LOAD.MTIME_LO (R101). -/
def execLoadMtimeLo (off len : Nat) (s : State) : Host.Outcome State Fault Refusal :=
  s.serve len (inField (.half .mtimeLo) off len) (s.answerHalf .mtimeLo off len)

/-- LOAD.MTIME_HI (R102). -/
def execLoadMtimeHi (off len : Nat) (s : State) : Host.Outcome State Fault Refusal :=
  s.serve len (inField (.half .mtimeHi) off len) (s.answerHalf .mtimeHi off len)

/-- LOAD.MTIMECMP_LO (R103). -/
def execLoadMtimecmpLo (off len : Nat) (s : State) : Host.Outcome State Fault Refusal :=
  s.serve len (inField (.half .mtimecmpLo) off len) (s.answerHalf .mtimecmpLo off len)

/-- LOAD.MTIMECMP_HI (R104). -/
def execLoadMtimecmpHi (off len : Nat) (s : State) : Host.Outcome State Fault Refusal :=
  s.serve len (inField (.half .mtimecmpHi) off len) (s.answerHalf .mtimecmpHi off len)

/-- LOAD.DIV_LO (R105). -/
def execLoadDivLo (off len : Nat) (s : State) : Host.Outcome State Fault Refusal :=
  s.serve len (inField (.half .divLo) off len) (s.answerHalf .divLo off len)

/-- LOAD.DIV_HI (R106). -/
def execLoadDivHi (off len : Nat) (s : State) : Host.Outcome State Fault Refusal :=
  s.serve len (inField (.half .divHi) off len) (s.answerHalf .divHi off len)

/-- LOAD.WALLCLOCK: one new sample, recorded, and its bytes (R107). -/
def execLoadWallclock (off len : Nat) (s : State) : Host.Outcome State Fault Refusal :=
  s.serve len (inField .wallclock off len) (s.answerWallclock off len)

/-- LOAD.FAIL: no state change and no clock sample (R108). -/
def execLoadFail (off len : Nat) (s : State) : Host.Outcome State Fault Refusal :=
  s.serve len (!inSomeField off len) (s.respond .fail)

end Sys2Proof.Machine
end

