-- ==== Sys2Proof/Machine/Store.lean ====
section
/-! DEFINITION. The meanings of the STORE family (41_bus_store.md). Each common part is R120's, in `State.serve`. -/

namespace Sys2Proof.Machine

/-- STORE.MTIME_LO (R121). -/
def execStoreMtimeLo (off len : Nat) (wdata : List Byte) (s : State) : Host.Outcome State Fault Refusal :=
  s.serve len (inField (.half .mtimeLo) off len && wdata.length == len) (s.storeHalf .mtimeLo off len wdata)

/-- STORE.MTIME_HI (R122). -/
def execStoreMtimeHi (off len : Nat) (wdata : List Byte) (s : State) : Host.Outcome State Fault Refusal :=
  s.serve len (inField (.half .mtimeHi) off len && wdata.length == len) (s.storeHalf .mtimeHi off len wdata)

/-- STORE.MTIMECMP_LO (R123): the interrupt condition is not evaluated again (20_memory.md R60). -/
def execStoreMtimecmpLo (off len : Nat) (wdata : List Byte) (s : State) : Host.Outcome State Fault Refusal :=
  s.serve len (inField (.half .mtimecmpLo) off len && wdata.length == len) (s.storeHalf .mtimecmpLo off len wdata)

/-- STORE.MTIMECMP_HI (R124). -/
def execStoreMtimecmpHi (off len : Nat) (wdata : List Byte) (s : State) : Host.Outcome State Fault Refusal :=
  s.serve len (inField (.half .mtimecmpHi) off len && wdata.length == len) (s.storeHalf .mtimecmpHi off len wdata)

/-- STORE.DIV_LO (R125): the accumulator keeps its value. -/
def execStoreDivLo (off len : Nat) (wdata : List Byte) (s : State) : Host.Outcome State Fault Refusal :=
  s.serve len (inField (.half .divLo) off len && wdata.length == len) (s.storeHalf .divLo off len wdata)

/-- STORE.DIV_HI (R126). -/
def execStoreDivHi (off len : Nat) (wdata : List Byte) (s : State) : Host.Outcome State Fault Refusal :=
  s.serve len (inField (.half .divHi) off len && wdata.length == len) (s.storeHalf .divHi off len wdata)

/-- STORE.WALLCLOCK: the field is read-only, so FAIL with no state change and no sample (R127). -/
def execStoreWallclock (off len : Nat) (wdata : List Byte) (s : State) : Host.Outcome State Fault Refusal :=
  s.serve len (inField .wallclock off len && wdata.length == len) (s.respond .fail)

/-- STORE.NOP: in the window but in no field, so OK with no state change (R128). -/
def execStoreNop (off len : Nat) (wdata : List Byte) (s : State) : Host.Outcome State Fault Refusal :=
  s.serve len (inWindow off len && !inSomeField off len && wdata.length == len) (s.respond .ok)

/-- STORE.FAIL: FAIL with no state change (R129). -/
def execStoreFail (off len : Nat) (wdata : List Byte) (s : State) : Host.Outcome State Fault Refusal :=
  s.serve len (!inWindow off len && !inSomeField off len && wdata.length == len) (s.respond .fail)

end Sys2Proof.Machine
end

