-- ==== Sys2Proof/Machine/Tick.lean ====
section
/-! DEFINITION. The meaning of TICK (42_tick_engine.md). -/

namespace Sys2Proof.Machine

/-- TICK: a model fault while no core is attached (R152), else one indivisible step (R140). -/
def execTick (s : State) : Host.Outcome State Fault Refusal :=
  s.unlessFatal (if s.attached = false then .fault .tickUnattached else .next s.tick)

end Sys2Proof.Machine
end

