-- ==== Sys2Proof/Machine/Dispatch.lean ====
section
/-! DEFINITION. The dispatch of every instruction to its meaning, one arm per constructor. -/

namespace Sys2Proof.Machine

def exec (i : Instr) (s : State) : Host.Outcome State Fault Refusal :=
  match i with
  | .loadMtimeLo off len => Sys2Proof.Machine.execLoadMtimeLo off len s
  | .loadMtimeHi off len => Sys2Proof.Machine.execLoadMtimeHi off len s
  | .loadMtimecmpLo off len => Sys2Proof.Machine.execLoadMtimecmpLo off len s
  | .loadMtimecmpHi off len => Sys2Proof.Machine.execLoadMtimecmpHi off len s
  | .loadDivLo off len => Sys2Proof.Machine.execLoadDivLo off len s
  | .loadDivHi off len => Sys2Proof.Machine.execLoadDivHi off len s
  | .loadWallclock off len => Sys2Proof.Machine.execLoadWallclock off len s
  | .loadFail off len => Sys2Proof.Machine.execLoadFail off len s
  | .storeMtimeLo off len wdata => Sys2Proof.Machine.execStoreMtimeLo off len wdata s
  | .storeMtimeHi off len wdata => Sys2Proof.Machine.execStoreMtimeHi off len wdata s
  | .storeMtimecmpLo off len wdata => Sys2Proof.Machine.execStoreMtimecmpLo off len wdata s
  | .storeMtimecmpHi off len wdata => Sys2Proof.Machine.execStoreMtimecmpHi off len wdata s
  | .storeDivLo off len wdata => Sys2Proof.Machine.execStoreDivLo off len wdata s
  | .storeDivHi off len wdata => Sys2Proof.Machine.execStoreDivHi off len wdata s
  | .storeWallclock off len wdata => Sys2Proof.Machine.execStoreWallclock off len wdata s
  | .storeNop off len wdata => Sys2Proof.Machine.execStoreNop off len wdata s
  | .storeFail off len wdata => Sys2Proof.Machine.execStoreFail off len wdata s
  | .tick => Sys2Proof.Machine.execTick s
  | .attach corePresent => Sys2Proof.Machine.execAttach corePresent s

end Sys2Proof.Machine
end

