-- ==== Sys2Proof/Machine/Step.lean ====
section
/-! DEFINITION. One step of the machine: the next thing that happens at the device's interface. The block has no program
counter and fetches nothing (10_state.md R30); where another machine fetches, this one takes the next input. -/

namespace Sys2Proof.Machine

/-- One step. After the fatal stop there is none (60_exceptions.md R172). With nothing pending the block does nothing
(10_state.md R30). The core's change of its flags is a step of its own, between device operations (20_memory.md R63). A
request is decoded on the state before it (30_encoding.md R72) and executed, or refused by name. -/
def step (s : State) : Host.Outcome State Fault Refusal :=
  if s.fatal then .fault .noCore
  else
    match s.inputs with
    | [] => .next s
    | .core gie tie tip :: rest => .next ({ s with inputs := rest }.coreSets gie tie tip)
    | .request r :: rest =>
      match decode s.attached r with
      | .ok i => exec i { s with inputs := rest }
      | .error e => .refused (refusalOf e)

/-- Put the request that the word stands for where the step takes its next input, on a device attached or not as that
request needs (log 8). -/
def State.withFetchWord (s : State) (nbits w : Nat) : State :=
  { s with inputs := .request (wordRequest nbits w) :: s.inputs, attached := attachedFor (wordRequest nbits w) }

end Sys2Proof.Machine
end

