-- ==== Sys2Proof/Safety.lean ====
section
/-! DEFINITION. The terms claims are stated in: safe states, what an orderly host issues, the invariant of the machine,
and short names for what the spec's rules say of a value. -/

namespace Sys2Proof.Machine

/-- The device serves requests: bound to its core and not fatally stopped. -/
def State.ready (s : State) : Prop :=
  s.attached = true ∧ s.fatal = false

/-- The duties of the host (70_reset_and_hazards.md R209) and the request tuples of 30_encoding.md R70, on what is still
to happen: ATTACH once and with a core, TICK only after it, LOAD and STORE at any time, the core's changes at any time,
nothing the block does not accept. -/
def orderly : Bool → List Input → Bool
  | _, [] => true
  | attached, .core _ _ _ :: rest => orderly attached rest
  | attached, .request (.load _ _) :: rest => orderly attached rest
  | attached, .request (.store _ len wdata) :: rest => wdata.length == len && orderly attached rest
  | attached, .request .tick :: rest => attached && orderly attached rest
  | attached, .request (.attach corePresent) :: rest => !attached && corePresent && orderly true rest
  | _, .request (.fetch _ _) :: _ => false
  | _, .request (.foreign _) :: _ => false

/-- The invariant of the machine, for one whose draw counter was `first` at construction. Until a core is attached the
registers, the accumulator and the sample record are as constructed (10_state.md R34 to R40), and a fatally stopped
device is not attached (43_attach.md R160, R161). The last two clauses are about the model's own draw counter (log 6):
with no sample recorded none was drawn, and the recorded sample is at or above everything the clock has answered. -/
structure State.Inv (s : State) (first : Nat) : Prop where
  constructed : s.attached = false →
    s.acc = 0 ∧ s.mtime = Config.resetMtime ∧ s.mtimecmp = Config.resetMtimecmp ∧
      s.divisor = Config.resetDivisor ∧ s.wcLast = none
  fatalUnattached : s.fatal = true → s.attached = false
  neverSampled : s.wcLast = none → s.clockDraws = first
  sampleDominates : ∀ p, s.wcLast = some p → ∀ n, first ≤ n → n < s.clockDraws → Config.wallClock n ≤ p

/-- The request is contained in none of the seven spans of 20_memory.md R52. -/
def inNoSpan (off len : Nat) : Prop :=
  contained off len 0x00 4 = false ∧ contained off len 0x04 4 = false ∧ contained off len 0x08 4 = false ∧
    contained off len 0x0C 4 = false ∧ contained off len 0x10 4 = false ∧ contained off len 0x14 4 = false ∧
    contained off len 0x18 8 = false

/-- `h'` is `h` with the `len` bytes of `wdata` in the lanes from `k` on: the equation of 30_encoding.md R73, lane by
lane. -/
def lanesWritten (h h' : Word) (k len : Nat) (wdata : List Byte) : Prop :=
  ∀ j, j < 4 →
    h'.extractLsb' (8 * j) 8 = if k ≤ j ∧ j < k + len then wdata.getD (j - k) 0 else h.extractLsb' (8 * j) 8

/-- `rdata` is the `len` bytes of the field value `v` from byte `k` on: the equation of 30_encoding.md R74. -/
def bytesRead (v : BitVec n) (k len : Nat) (rdata : List Byte) : Prop :=
  rdata.length = len ∧ ∀ i, i < len → rdata[i]? = some (v.extractLsb' (8 * (k + i)) 8)

/-- `n` steps, stopping at the first fault or refusal. -/
def run : Nat → State → Host.Outcome State Fault Refusal
  | 0, s => .next s
  | n + 1, s =>
    match step s with
    | .next t => run n t
    | .fault f => .fault f
    | .refused r => .refused r

/-- `n` TICKs in a row (30_encoding.md R79, `TICK*n`). -/
def ticks (n : Nat) : List Input :=
  List.replicate n (.request .tick)

/-- How many TICKs it takes to the next increment of mtime: `((D - acc - 1) mod 2^64) + 1`
(42_tick_engine.md R151). -/
def State.ticksToRollover (s : State) : Nat :=
  (s.divisor - s.acc - 1).toNat + 1

end Sys2Proof.Machine
end

