-- ==== Sys2Proof/Certificates/Slice0/Obligations.lean ====
section
/-! DEFINITION. The statements for the provers. Each docstring names the rules of spec/ it formalises. -/

open Sys2Proof Sys2Proof.Machine

/-- R34, R36, R38: the accumulator is 0, the six halves hold the three parameters and no sample is recorded. That the
registers are parameters and that no sample is recorded are the spec's own decisions (D4, D11); that a sample with
none recorded is `Config.wallClock` at the draw counter is the model's choice (log 6, DESIGN CHOICE). -/
def Obligations.ResetGivesTheConstructionValues : Prop :=
  State.reset.acc = 0 ∧
    (State.reset.mtimeHi ++ State.reset.mtimeLo : BitVec 64) = Config.resetMtime ∧
    (State.reset.mtimecmpHi ++ State.reset.mtimecmpLo : BitVec 64) = Config.resetMtimecmp ∧
    (State.reset.divHi ++ State.reset.divLo : BitVec 64) = Config.resetDivisor ∧
    State.reset.wcLast = none ∧ ∀ s : State, s.wcLast = none → s.clockSample = Config.wallClock s.clockDraws

/-- R35: constructed unattached, and while unattached every LOAD and STORE answers FAIL and changes nothing else. -/
def Obligations.UnattachedDeviceFailsEveryRequest : Prop :=
  State.reset.attached = false ∧
    ∀ (s : State) (rest : List Input), s.fatal = false → s.attached = false →
      (∀ off len, s.inputs = .request (.load off len) :: rest →
        step s = .next { s with inputs := rest, response := some .fail }) ∧
      (∀ off len wdata, wdata.length = len → s.inputs = .request (.store off len wdata) :: rest →
        step s = .next { s with inputs := rest, response := some .fail })

/-- R30, R72: a step takes the next request, decodes it on the state before it, and is `exec` of the decoded instruction
with the request consumed. -/
def Obligations.StepRunsTheDecodedInstruction : Prop :=
  ∀ (s : State) (r : Request) (rest : List Input) (i : Instr), s.fatal = false → s.inputs = .request r :: rest →
    decode s.attached r = .ok i → step s = exec i { s with inputs := rest }

/-- A choice, not the source's words: that the core's change falls between device operations is the spec's own decision
(D20, D15, in R63 and R180), and that it is a step of its own, before ATTACH too, is the model's (log 15, DESIGN
CHOICE). It sets exactly the three flags. -/
def Obligations.CoreChangesItsFlagsBetweenOperations : Prop :=
  ∀ (s : State) (gie tie tip : Bool) (rest : List Input), s.fatal = false → s.inputs = .core gie tie tip :: rest →
    step s = .next { s with inputs := rest, coreGie := gie, coreTie := tie, coreTip := tip }

/-- R30; the step with nothing pending is the model's choice (log 1): it stays where it is. -/
def Obligations.NothingAdvancesWithoutACall : Prop :=
  ∀ s : State, s.fatal = false → s.inputs = [] → step s = .next s

/-- A choice: the refusal is the spec's own decision (D14, in R65), held in log 10. -/
def Obligations.FetchFromTheWindowIsRefused : Prop :=
  ∀ (s : State) (off len : Nat) (rest : List Input), s.fatal = false → s.inputs = .request (.fetch off len) :: rest →
    step s = .refused .fetchFromWindow

/-- A choice: the mark, and that nothing is admitted after it, are the spec's own decision (D21, in R161); that ATTACH
with no core answers a next state and every later step and instruction is the fault `noCore` is the model's reading
(log 7, DEDUCED). -/
def Obligations.AttachWithNoCoreIsFatal : Prop :=
  (∀ s : State, s.fatal = false → s.attached = false →
      exec (.attach false) s = .next { s with fatal := true, response := some .fatalNoCore }) ∧
    ∀ s : State, s.fatal = true → step s = .fault .noCore ∧ ∀ i, exec i s = .fault .noCore

/-- R160 for ATTACH with the core present and for the only writer of `attached`. The clause for no core, a next state
with `fatal` set and the response Fatal(NoCore), is a choice: the spec's D21 (in R161) and the model's reading (log
7, DEDUCED). -/
def Obligations.AttachBindsTheDeviceAndAloneWritesAttached : Prop :=
  (∀ s : State, s.fatal = false → s.attached = false →
      exec (.attach true) s = .next { s with attached := true, response := some .ok } ∧
      exec (.attach false) s = .next { s with fatal := true, response := some .fatalNoCore }) ∧
    ∀ (i : Instr) (s t : State), exec i s = .next t → t.attached ≠ s.attached → i = .attach true

/-- A choice: the fault is the spec's own decision (D10, in R163), as log 7 (DEDUCED) models it. -/
def Obligations.SecondAttachFaults : Prop :=
  ∀ (s : State) (corePresent : Bool), s.fatal = false → s.attached = true →
    exec (.attach corePresent) s = .fault .attachTwice

/-- A choice: the fault is the spec's own decision (D9, in R152), as log 7 (DEDUCED) models it; so is the fault after
the fatal stop (D21). -/
def Obligations.TickWithNoCoreFaults : Prop :=
  ∀ s : State, (s.fatal = false → s.attached = false → exec .tick s = .fault .tickUnattached) ∧
    (s.fatal = true → exec .tick s = .fault .noCore)

/-- Where a step faults, and with which fault. The three faults are a choice: the spec's own decisions D9, D10 and D21
(in R172); that a failed ATTACH is itself no faulting step is the model's reading (log 7, DEDUCED). R174 is the
source's. -/
def Obligations.StepFaultsExactlyInTheThreeModelFaults : Prop :=
  ∀ (s : State) (f : Fault), step s = .fault f ↔
    (s.fatal = true ∧ f = .noCore) ∨
      (s.fatal = false ∧ s.attached = false ∧ (∃ rest, s.inputs = .request .tick :: rest) ∧ f = .tickUnattached) ∨
      (s.fatal = false ∧ s.attached = true ∧ (∃ corePresent rest, s.inputs = .request (.attach corePresent) :: rest) ∧
        f = .attachTwice)

/-- Exactly what the step refuses; in particular never a row it has decoded. The refusals are a choice: that of a fetch
is the spec's own decision (D14, in R65; D23 for fences and atomics, in R64), `unknownRequestKind` and
`malformedStore` are the model's names for what R70 does not admit (log 10, DESIGN CHOICE). -/
def Obligations.StepRefusesOnlyWhatIsNoOperationOfTheBlock : Prop :=
  ∀ (s : State) (r : Refusal), step s = .refused r ↔ s.fatal = false ∧ ∃ rest,
    (∃ off len, s.inputs = .request (.fetch off len) :: rest ∧ r = .fetchFromWindow) ∨
      (∃ kind, s.inputs = .request (.foreign kind) :: rest ∧ r = .unknownRequestKind kind) ∨
      (∃ off len wdata, s.inputs = .request (.store off len wdata) :: rest ∧ wdata.length ≠ len ∧ r = .malformedStore)

/-- R101 to R106: for each half, the bytes of its current value, and nothing else changes. -/
def Obligations.LoadOfAHalfAnswersItsBytes : Prop :=
  ∀ (s : State) (off len : Nat), s.ready →
    (contained off len 0x00 4 = true → ∃ rdata, exec (.loadMtimeLo off len) s = .next { s with response := some (.data rdata) } ∧
        bytesRead s.mtimeLo (off - 0x00) len rdata) ∧
      (contained off len 0x04 4 = true → ∃ rdata, exec (.loadMtimeHi off len) s = .next { s with response := some (.data rdata) } ∧
        bytesRead s.mtimeHi (off - 0x04) len rdata) ∧
      (contained off len 0x08 4 = true → ∃ rdata, exec (.loadMtimecmpLo off len) s = .next { s with response := some (.data rdata) } ∧
        bytesRead s.mtimecmpLo (off - 0x08) len rdata) ∧
      (contained off len 0x0C 4 = true → ∃ rdata, exec (.loadMtimecmpHi off len) s = .next { s with response := some (.data rdata) } ∧
        bytesRead s.mtimecmpHi (off - 0x0C) len rdata) ∧
      (contained off len 0x10 4 = true → ∃ rdata, exec (.loadDivLo off len) s = .next { s with response := some (.data rdata) } ∧
        bytesRead s.divLo (off - 0x10) len rdata) ∧
      (contained off len 0x14 4 = true → ∃ rdata, exec (.loadDivHi off len) s = .next { s with response := some (.data rdata) } ∧
        bytesRead s.divHi (off - 0x14) len rdata)

/-- R76, R107: one sample, recorded and answered byte by byte. The single sample at or above the last one (`wcLast`) is
the spec's own decision (D11, in R29); that it is otherwise `Config.wallClock` at the draw counter, and the counter
itself, are the model's choice (log 6, DESIGN CHOICE). -/
def Obligations.LoadOfTheWallclockTakesOneSample : Prop :=
  ∀ (s : State) (off len : Nat), s.ready → contained off len 0x18 8 = true →
    ∃ w rdata, exec (.loadWallclock off len) s =
        .next { s with wcLast := some w, clockDraws := s.clockDraws + 1, response := some (.data rdata) } ∧
      bytesRead w (off - 0x18) len rdata ∧ (∀ p, s.wcLast = some p → p ≤ w) ∧
      ((∀ p, s.wcLast = some p → p ≤ Config.wallClock s.clockDraws) → w = Config.wallClock s.clockDraws)

/-- R108. -/
def Obligations.LoadFailureChangesNothing : Prop :=
  ∀ (s : State) (off len : Nat), s.fatal = false → (len = 0 ∨ s.attached = false ∨ inNoSpan off len) →
    exec (.loadFail off len) s = .next { s with response := some .fail }

/-- R73, R121 to R126: the enabled byte lanes of that one half take the input bytes, and nothing else changes. -/
def Obligations.StoreToAHalfWritesItsEnabledLanes : Prop :=
  ∀ (s : State) (off len : Nat) (wdata : List Byte), s.ready → wdata.length = len →
    (contained off len 0x00 4 = true → ∃ h, exec (.storeMtimeLo off len wdata) s =
          .next { s with mtimeLo := h, response := some .ok } ∧ lanesWritten s.mtimeLo h (off - 0x00) len wdata) ∧
      (contained off len 0x04 4 = true → ∃ h, exec (.storeMtimeHi off len wdata) s =
          .next { s with mtimeHi := h, response := some .ok } ∧ lanesWritten s.mtimeHi h (off - 0x04) len wdata) ∧
      (contained off len 0x08 4 = true → ∃ h, exec (.storeMtimecmpLo off len wdata) s =
          .next { s with mtimecmpLo := h, response := some .ok } ∧ lanesWritten s.mtimecmpLo h (off - 0x08) len wdata) ∧
      (contained off len 0x0C 4 = true → ∃ h, exec (.storeMtimecmpHi off len wdata) s =
          .next { s with mtimecmpHi := h, response := some .ok } ∧ lanesWritten s.mtimecmpHi h (off - 0x0C) len wdata) ∧
      (contained off len 0x10 4 = true → ∃ h, exec (.storeDivLo off len wdata) s =
          .next { s with divLo := h, response := some .ok } ∧ lanesWritten s.divLo h (off - 0x10) len wdata) ∧
      (contained off len 0x14 4 = true → ∃ h, exec (.storeDivHi off len wdata) s =
          .next { s with divHi := h, response := some .ok } ∧ lanesWritten s.divHi h (off - 0x14) len wdata)

/-- A choice: the FAIL response is the spec's own decision (D8, in R127; its option S2 is not taken), held in log 12
(DEDUCED). -/
def Obligations.StoreToTheWallclockFails : Prop :=
  ∀ (s : State) (off len : Nat) (wdata : List Byte), s.fatal = false → contained off len 0x18 8 = true →
    wdata.length = len → exec (.storeWallclock off len wdata) s = .next { s with response := some .fail }

/-- A choice: the OK response, for a STORE that crosses a span boundary too, is the spec's own decision (D7, in R128;
its option S1 is not taken), held in log 11 (DEDUCED). -/
def Obligations.StoreInNoFieldIsANoOpSuccess : Prop :=
  ∀ (s : State) (off len : Nat) (wdata : List Byte), s.ready → 1 ≤ len → off + len ≤ windowSize →
    inNoSpan off len → wdata.length = len →
    exec (.storeNop off len wdata) s = .next { s with response := some .ok }

/-- R129: a range past the window is contained in no span, whatever the window's size. -/
def Obligations.StoreFailureChangesNothing : Prop :=
  ∀ (s : State) (off len : Nat) (wdata : List Byte), s.fatal = false →
    (len = 0 ∨ s.attached = false ∨ windowSize < off + len) → wdata.length = len →
    exec (.storeFail off len wdata) s = .next { s with response := some .fail }

/-- R33, R54, R55, R73, read through the register file's bytes: the frame of a STORE. -/
def Obligations.StoreChangesOnlyTheBytesItStores : Prop :=
  ∀ (s : State) (rest : List Input) (h : Half) (off len : Nat) (wdata : List Byte), s.ready →
    inField (.half h) off len = true → wdata.length = len → s.inputs = .request (.store off len wdata) :: rest →
    ∃ t, step s = .next t ∧
      (∀ a, t.byteAt a = if off ≤ a ∧ a < off + len then wdata[a - off]? else s.byteAt a) ∧
      t.acc = s.acc ∧ t.attached = s.attached ∧ t.fatal = s.fatal ∧ t.wcLast = s.wcLast ∧ t.coreGie = s.coreGie ∧
      t.coreTie = s.coreTie ∧ t.coreTip = s.coreTip ∧ t.clockDraws = s.clockDraws ∧ t.inputs = rest ∧
      t.response = some .ok

/-- R62, with the request decoded by the step. -/
def Obligations.LoadAfterStoreReturnsTheStoredBytes : Prop :=
  ∀ (s : State) (rest : List Input) (h : Half) (off len : Nat) (wdata : List Byte), s.ready →
    inField (.half h) off len = true → wdata.length = len →
    s.inputs = .request (.store off len wdata) :: .request (.load off len) :: rest →
    ∃ t, run 2 s = .next t ∧ t.response = some (.data wdata) ∧ t.inputs = rest

/-- R61 for the first two clauses, and for the third that a wall-clock STORE changes nothing. That its response is FAIL
is a choice: the spec's own decision D8 (in R127), held in log 12 (DEDUCED). -/
def Obligations.StoresAreIdempotentAndRoundTrip : Prop :=
  (∀ (s : State) (rest : List Input) (off len : Nat) (wdata : List Byte), s.fatal = false → wdata.length = len →
      s.inputs = .request (.store off len wdata) :: .request (.store off len wdata) :: rest →
      ∃ t, step s = .next t ∧ step t = .next { t with inputs := rest }) ∧
    (∀ (s : State) (rest : List Input) (h : Half) (off len : Nat), s.ready → inField (.half h) off len = true →
      s.inputs = .request (.load off len) :: rest →
      ∃ t rdata, step s = .next t ∧ t.response = some (.data rdata) ∧
        step { t with inputs := .request (.store off len rdata) :: rest } =
          .next { s with inputs := rest, response := some .ok }) ∧
    ∀ (s : State) (rest : List Input) (off len : Nat) (wdata : List Byte), s.fatal = false →
      inField .wallclock off len = true → wdata.length = len → s.inputs = .request (.store off len wdata) :: rest →
      step s = .next { s with inputs := rest, response := some .fail }

/-- R171. -/
def Obligations.FailLeavesTheStateAsBefore : Prop :=
  ∀ (i : Instr) (s t : State), exec i s = .next t → t.response = some .fail →
    t = { s with response := some .fail }

/-- R33, R24: over all instructions, which one can change each register and the accumulator. -/
def Obligations.RegistersHaveOnlyTheirNamedWriters : Prop :=
  ∀ (i : Instr) (s t : State), exec i s = .next t →
    (t.mtimeLo ≠ s.mtimeLo → (∃ off len wdata, i = .storeMtimeLo off len wdata ∧ inField (.half .mtimeLo) off len = true) ∨
        (i = .tick ∧ s.divisor ≠ 0 ∧ s.acc + 1 = s.divisor)) ∧
      (t.mtimeHi ≠ s.mtimeHi → (∃ off len wdata, i = .storeMtimeHi off len wdata ∧ inField (.half .mtimeHi) off len = true) ∨
        (i = .tick ∧ s.divisor ≠ 0 ∧ s.acc + 1 = s.divisor)) ∧
      (t.mtimecmpLo ≠ s.mtimecmpLo → (∃ off len wdata, i = .storeMtimecmpLo off len wdata ∧ inField (.half .mtimecmpLo) off len = true)) ∧
      (t.mtimecmpHi ≠ s.mtimecmpHi → (∃ off len wdata, i = .storeMtimecmpHi off len wdata ∧ inField (.half .mtimecmpHi) off len = true)) ∧
      (t.divLo ≠ s.divLo → (∃ off len wdata, i = .storeDivLo off len wdata ∧ inField (.half .divLo) off len = true)) ∧
      (t.divHi ≠ s.divHi → (∃ off len wdata, i = .storeDivHi off len wdata ∧ inField (.half .divHi) off len = true)) ∧
      (t.acc ≠ s.acc → i = .tick ∧ s.divisor ≠ 0)

/-- R176, R27: over all instructions. -/
def Obligations.OnlyTickDrivesThePendingFlag : Prop :=
  ∀ (i : Instr) (s t : State), exec i s = .next t →
    t.coreGie = s.coreGie ∧ t.coreTie = s.coreTie ∧ (t.coreTip ≠ s.coreTip → i = .tick ∧ s.divisor ≠ 0)

/-- A choice: the mark `fatal` is model-only and the spec's own decision (D21, in R39); that a state with it set has no
next state, so that it is never cleared, is the model's reading (log 7, DEDUCED). -/
def Obligations.OnlyTheFailedAttachSetsTheFatalMark : Prop :=
  State.reset.fatal = false ∧
    (∀ (i : Instr) (s t : State), exec i s = .next t → s.fatal = false ∧ (t.fatal = true → i = .attach false)) ∧
    ∀ s t : State, step s = .next t → s.fatal = false ∧
      (t.fatal = true → ∃ rest, s.inputs = .request (.attach false) :: rest)

/-- R27, 90_conflicts.md C5, over all instructions and every value of core.TIP at once: an instruction either keeps
whatever core.TIP is or leaves one value that does not depend on it; the response and the rest of the state depend
on it in neither case. -/
def Obligations.PendingFlagIsNeverRead : Prop :=
  ∀ (i : Instr) (s t : State), exec i s = .next t →
    (∀ tip, exec i { s with coreTip := tip } = .next { t with coreTip := tip }) ∨
      ∀ tip, exec i { s with coreTip := tip } = .next t

/-- R24, R205: two runs that differ only in the accumulator. -/
def Obligations.AccumulatorIsInvisibleToBusRequests : Prop :=
  ∀ (i : Instr) (s t : State) (a : DWord), i ≠ .tick → exec i s = .next t →
    exec i { s with acc := a } = .next { t with acc := a }

/-- R29 over every step. -/
def Obligations.WallclockSamplesNeverDecrease : Prop :=
  ∀ (s t : State) (p : DWord), step s = .next t → s.wcLast = some p → ∃ w, t.wcLast = some w ∧ p ≤ w

/-- R70 to R72, R77: decode and encode agree, every operand at every value. -/
def Obligations.DecodeOfEncodeIsTheInstruction : Prop :=
  ∀ (attached : Bool) (i : Instr), i.wellFormed = true → i.selected attached = true → decode attached (encode i) = .ok i

/-- R71, R72: the other direction. With the first it says that exactly one row's match condition holds for a request. -/
def Obligations.DecodedInstructionIsTheSelectedRow : Prop :=
  ∀ (attached : Bool) (r : Request) (i : Instr), decode attached r = .ok i →
    encode i = r ∧ i.wellFormed = true ∧ i.selected attached = true

/-- R53, R71. -/
def Obligations.SpansAreDisjointAndCoverTheFields : Prop :=
  (∀ f g off len, inField f off len = true → inField g off len = true → f = g) ∧
    (∀ a, (∃ f, inField f a 1 = true) ↔ a < 0x20) ∧
    ∀ off len, 0x20 ≤ off → inNoSpan off len

/-- R51, R108, R129, whatever the offset. That the sum is exact and never wraps is a choice: the spec's own decision D6
(in R80), held in log 14 (DEDUCED). -/
def Obligations.RequestsPastTheWindowFail : Prop :=
  ∀ (s : State) (rest : List Input) (off len : Nat), s.ready → windowSize < off + len →
    (s.inputs = .request (.load off len) :: rest →
      step s = .next { s with inputs := rest, response := some .fail }) ∧
    ∀ wdata, wdata.length = len → s.inputs = .request (.store off len wdata) :: rest →
      step s = .next { s with inputs := rest, response := some .fail }

/-- The asymmetry to preserve. That a STORE in the window and in no span, a crossing one included, answers OK is a
choice: the spec's own decision D7 (in R77 and R128), held in log 11 (DEDUCED). The LOAD's FAIL is R108. -/
def Obligations.UnmappedLoadFailsWhereStoreSucceeds : Prop :=
  ∀ (s : State) (rest : List Input) (off len : Nat), s.ready → 1 ≤ len → off + len ≤ windowSize → inNoSpan off len →
    (s.inputs = .request (.load off len) :: rest →
      step s = .next { s with inputs := rest, response := some .fail }) ∧
    ∀ wdata, wdata.length = len → s.inputs = .request (.store off len wdata) :: rest →
      step s = .next { s with inputs := rest, response := some .ok }

/-- R57. That the 8-byte STORE answers OK is a choice: the spec's own decision D7 (in R128), held in log 11 (DEDUCED). -/
def Obligations.NoRequestMovesAWhole64BitRegister : Prop :=
  (∀ h off len, inField (.half h) off len = true → 1 ≤ len ∧ len ≤ 4) ∧
    (∀ off len, inField .wallclock off len = true → 1 ≤ len ∧ len ≤ 8) ∧
    ∀ (s : State) (rest : List Input) (off : Nat), s.ready → (off = 0x00 ∨ off = 0x08 ∨ off = 0x10) →
      (s.inputs = .request (.load off 8) :: rest →
        step s = .next { s with inputs := rest, response := some .fail }) ∧
      ∀ wdata, wdata.length = 8 → s.inputs = .request (.store off 8 wdata) :: rest →
        step s = .next { s with inputs := rest, response := some .ok }

/-- R59: a LOAD of a half repeated at once answers the same and changes nothing. -/
def Obligations.RegisterLoadsHaveNoSideEffect : Prop :=
  ∀ (s : State) (rest : List Input) (h : Half) (off len : Nat), s.ready → inField (.half h) off len = true →
    s.inputs = .request (.load off len) :: .request (.load off len) :: rest →
    ∃ t, step s = .next t ∧ t = { s with inputs := t.inputs, response := t.response } ∧
      step t = .next { t with inputs := rest }

/-- R28: the high half shifted into the upper 32 bits, whatever the two halves are. -/
def Obligations.SixtyFourBitValuesAreAssembledFromTheirHalves : Prop :=
  ∀ s : State, s.mtime.toNat = s.mtimeHi.toNat * 2 ^ 32 + s.mtimeLo.toNat ∧
    s.mtimecmp.toNat = s.mtimecmpHi.toNat * 2 ^ 32 + s.mtimecmpLo.toNat ∧
    s.divisor.toNat = s.divHi.toNat * 2 ^ 32 + s.divLo.toNat

/-- R140, field by field; it is also TICK's frame and completion. That mtime increments modulo 2^64, wrapping at its
largest value, is a choice: the spec's own decision D5 (in R144), held in log 13 (DEDUCED). -/
def Obligations.TickIsTheStatedAlgorithm : Prop :=
  ∀ s : State, s.ready →
    (s.divisor = 0 → exec .tick s = .next { s with response := some (.irq false) }) ∧
    (s.divisor ≠ 0 → ∀ (a m c : BitVec 64), a = s.acc + 1 →
      m = (if a = (s.divHi ++ s.divLo : BitVec 64) then (s.mtimeHi ++ s.mtimeLo : BitVec 64) + 1
          else (s.mtimeHi ++ s.mtimeLo : BitVec 64)) →
      c = (s.mtimecmpHi ++ s.mtimecmpLo : BitVec 64) →
      exec .tick s = .next { s with
        acc := if a = (s.divHi ++ s.divLo : BitVec 64) then 0 else a
        mtimeLo := m.extractLsb' 0 32
        mtimeHi := m.extractLsb' 32 32
        coreTip := if c.toNat ≤ m.toNat then (s.coreGie && s.coreTie) || s.coreTip else false
        response := some (.irq (decide (c.toNat ≤ m.toNat) && s.coreGie && s.coreTie)) })

/-- R141, for any number of TICKs. -/
def Obligations.DisabledTimerIsSteady : Prop :=
  (∀ s : State, s.divisor = 0 ↔ s.divHi = 0 ∧ s.divLo = 0) ∧
    ∀ (s : State) (n : Nat) (rest : List Input), s.ready → s.divisor = 0 → s.inputs = ticks n ++ rest →
      run n s = .next { s with inputs := rest, response := if n = 0 then s.response else some (.irq false) }

/-- R142, R143, and R144's carry. The accumulator's wrap is the source's (R142); that mtime wraps from its largest value
to 0 is a choice: the spec's own decision D5 (in R144), held in log 13 (DEDUCED). -/
def Obligations.RolloverIsByEqualityWithCarryAndWrap : Prop :=
  ∀ s : State, s.ready → s.divisor ≠ 0 → ∃ t, exec .tick s = .next t ∧
    (s.acc + 1 = s.divisor → t.acc = 0 ∧ t.mtime = s.mtime + 1) ∧
    (s.acc + 1 ≠ s.divisor → t.acc = s.acc + 1 ∧ t.mtime = s.mtime) ∧
    (s.acc = 0xFFFFFFFFFFFFFFFF → t.acc = 0 ∧ t.mtime = s.mtime) ∧
    (s.acc + 1 = s.divisor → s.mtimeLo = 0xFFFFFFFF → t.mtimeLo = 0 ∧ t.mtimeHi = s.mtimeHi + 1) ∧
    (s.acc + 1 = s.divisor → s.mtimeLo ≠ 0xFFFFFFFF → t.mtimeLo = s.mtimeLo + 1 ∧ t.mtimeHi = s.mtimeHi)

/-- R146 to R150, R178: exactly one of assert, hold and clear, on the updated counter. -/
def Obligations.PendingFlagIsSetHeldOrCleared : Prop :=
  ∀ s : State, s.ready → s.divisor ≠ 0 → ∃ t, exec .tick s = .next t ∧
    (s.mtimecmp.toNat ≤ t.mtime.toNat → s.coreGie = true → s.coreTie = true →
      t.coreTip = true ∧ t.response = some (.irq true)) ∧
    (s.mtimecmp.toNat ≤ t.mtime.toNat → (s.coreGie = false ∨ s.coreTie = false) →
      t.coreTip = s.coreTip ∧ t.response = some (.irq false)) ∧
    (t.mtime.toNat < s.mtimecmp.toNat → t.coreTip = false ∧ t.response = some (.irq false))

/-- R151, second sentence: from any accumulator, by induction over the TICKs. That the increment is modulo 2^64 is a
choice: the spec's own decision D5 (in R144), held in log 13 (DEDUCED). -/
def Obligations.NextRolloverComesAfterTheStatedTicks : Prop :=
  ∀ (s : State) (n : Nat) (rest : List Input), s.ready → s.divisor ≠ 0 → s.inputs = ticks n ++ rest →
    (n < s.ticksToRollover → ∃ t, run n s = .next t ∧ t.mtime = s.mtime ∧ t.acc = s.acc + BitVec.ofNat 64 n ∧
      t.divisor = s.divisor ∧ t.inputs = rest) ∧
    (n = s.ticksToRollover → ∃ t, run n s = .next t ∧ t.mtime = s.mtime + 1 ∧ t.acc = 0 ∧
      t.divisor = s.divisor ∧ t.inputs = rest)

/-- R151, first sentence, TICK by TICK: the value and the accumulator after any number of TICKs, and whether the next
TICK increments, which it does exactly where its number is D - acc or a multiple of D after that. That the
increments are modulo 2^64 is a choice: the spec's own decision D5 (in R144), held in log 13 (DEDUCED). -/
def Obligations.CounterAdvancesOncePerDivisorTicks : Prop :=
  ∀ (s : State) (n : Nat) (rest : List Input), s.ready → s.acc.toNat < s.divisor.toNat →
    s.inputs = ticks n ++ .request .tick :: rest →
    ∃ t u, run n s = .next t ∧ step t = .next u ∧ u.divisor = s.divisor ∧ u.inputs = rest ∧
      t.mtime = s.mtime + BitVec.ofNat 64 ((s.acc.toNat + n) / s.divisor.toNat) ∧
      t.acc.toNat = (s.acc.toNat + n) % s.divisor.toNat ∧
      ((∃ k, n + 1 = s.divisor.toNat - s.acc.toNat + k * s.divisor.toNat) → u.mtime = t.mtime + 1 ∧ u.acc = 0) ∧
      ((¬∃ k, n + 1 = s.divisor.toNat - s.acc.toNat + k * s.divisor.toNat) → u.mtime = t.mtime ∧ u.acc = t.acc + 1)

/-- R204: the compare values between the three STOREs. -/
def Obligations.ThreeStoreCompareUpdateIsSafe : Prop :=
  ∀ (s : State) (n : DWord) (rest : List Input), s.ready →
    s.inputs = .request (.st32 0x08 0xFFFFFFFF) :: .request (.st32 0x0C (hiHalf n)) ::
      .request (.st32 0x08 (loHalf n)) :: rest →
    ∃ t u v, step s = .next t ∧ step t = .next u ∧ step u = .next v ∧
      s.mtimecmp ≤ t.mtimecmp ∧ n ≤ u.mtimecmp ∧ v.mtimecmp = n ∧ v.coreTip = s.coreTip ∧ v.mtime = s.mtime ∧
      v.acc = s.acc ∧ v.inputs = rest

/-- R208: three LOADs with any TICKs between them; where the two high answers agree, the low answer and the first high
answer are the eight bytes of the counter at the low LOAD. The bound on the TICKs is the largest for which this
holds: with one more the counter can wrap (the spec's own decision D5, log 13) and come back to the same high half.
R208 names no bound. -/
def Obligations.HighLowHighReadOfTheCounterIsConsistent : Prop :=
  ∀ (s : State) (m n : Nat) (rest : List Input), s.ready → m + n ≤ 2 ^ 64 - 2 ^ 32 →
    s.inputs = .request (.load 0x04 4) ::
      (ticks m ++ .request (.load 0x00 4) :: (ticks n ++ .request (.load 0x04 4) :: rest)) →
    ∃ a t b u c hi lo hi', step s = .next a ∧ a.response = some (.data hi) ∧ run m a = .next t ∧
      step t = .next b ∧ b.response = some (.data lo) ∧ run n b = .next u ∧
      step u = .next c ∧ c.response = some (.data hi') ∧ c.inputs = rest ∧
      (hi' = hi → bytesRead t.mtime 0 8 (lo ++ hi))

/-- R202: the eight STOREs of the stated order, from any ready state. -/
def Obligations.InitialisationOrderSetsTheTimer : Prop :=
  ∀ (s : State) (m c d : DWord) (rest : List Input), s.ready →
    s.inputs = .request (.st32 0x10 0) :: .request (.st32 0x14 0) ::
      .request (.st32 0x00 (loHalf m)) :: .request (.st32 0x04 (hiHalf m)) ::
      .request (.st32 0x08 (loHalf c)) :: .request (.st32 0x0C (hiHalf c)) ::
      .request (.st32 0x10 (loHalf d)) :: .request (.st32 0x14 (hiHalf d)) :: rest →
    ∃ t u, run 2 s = .next t ∧ t.divisor = 0 ∧ t.coreTip = s.coreTip ∧ run 6 t = .next u ∧ u.mtime = m ∧
      u.mtimecmp = c ∧ u.divisor = d ∧ u.acc = s.acc ∧ u.coreTip = s.coreTip ∧ u.inputs = rest

/-- R34 to R40, R160, R161 (`State.Inv`), for every `first`. The two clauses on the draw counter and the clock's answers
are the model's, not R29's (log 6, DESIGN CHOICE); the fatal mark's is log 7 (DEDUCED). -/
def Obligations.EveryStepKeepsTheInvariant : Prop :=
  ∀ (first : Nat) (s t : State), s.Inv first → step s = .next t → t.Inv first

/-- `State.Inv` at `State.reset`. The draw counter and its clauses are the model's (log 6, DESIGN CHOICE): the statement
holds for every value of the counter, its value at reset included, and rests on none. -/
def Obligations.InvariantHoldsAfterConstruction : Prop :=
  ∀ first : Nat, ({ State.reset with clockDraws := first } : State).Inv first

/-- R174, R209: the block serves every order of requests that keeps the host's duties, for any number of steps. While
inputs are pending a step consumes one; that the steps after the last are idle is the model's choice (log 1, DESIGN
CHOICE), and so is that the core may set its flags before ATTACH (log 15, DESIGN CHOICE). -/
def Obligations.OrderlyHostIsNeverStopped : Prop :=
  ∀ (s : State) (n : Nat), s.fatal = false → orderly s.attached s.inputs = true →
    ∃ t, run n s = .next t ∧ t.fatal = false ∧ t.inputs = s.inputs.drop n ∧ orderly t.attached t.inputs = true

/-- The model's own byte form (log 8) drops nothing of a request with an offset below 2^64 and a length below 256. -/
def Obligations.ByteFormRoundTrips : Prop :=
  (∀ (off len : Nat) (more : List Byte), off < 2 ^ 64 → len < 256 →
      decodeBytes (encodeBytes (.load off len) ++ more) = .ok (.load off len, more)) ∧
    (∀ (off len : Nat) (wdata more : List Byte), off < 2 ^ 64 → len < 256 → wdata.length = len →
      decodeBytes (encodeBytes (.store off len wdata) ++ more) = .ok (.store off len wdata, more)) ∧
    (∀ more, decodeBytes (encodeBytes .tick ++ more) = .ok (.tick, more)) ∧
    ∀ corePresent more, decodeBytes (encodeBytes (.attach corePresent) ++ more) = .ok (.attach corePresent, more)

/-- The host's two functions on words agree (log 8). -/
def Obligations.PlacedWordRunsAsTheVeryNextStep : Prop :=
  ∀ (s : State) (nbits w : Nat) (i : Instr), s.fatal = false → decodeTableWord nbits w = some i →
    step (s.withFetchWord nbits w) = exec i { s with attached := attachedFor (wordRequest nbits w) }

/-- Requests of 95_test_vectors.md (L2, L6, L17, L23, W2, W10, W12, W18, T3, A1), written out. -/
def Obligations.DecoderReadsTheSpecsOwnRequests : Prop :=
  decode true (.load 0x01 2) = .ok (.loadMtimeLo 0x01 2) ∧
    decode true (.load 0x00 8) = .ok (.loadFail 0x00 8) ∧
    decode true (.load 0x1C 4) = .ok (.loadWallclock 0x1C 4) ∧
    decode false (.load 0x00 4) = .ok (.loadFail 0x00 4) ∧
    decode true (.store 0x02 2 [0xAA, 0xBB]) = .ok (.storeMtimeLo 0x02 2 [0xAA, 0xBB]) ∧
    decode true (.store 0x18 8 [0, 0, 0, 0, 0, 0, 0, 0]) = .ok (.storeWallclock 0x18 8 [0, 0, 0, 0, 0, 0, 0, 0]) ∧
    decode true (.store 0x00 8 [1, 2, 3, 4, 5, 6, 7, 8]) = .ok (.storeNop 0x00 8 [1, 2, 3, 4, 5, 6, 7, 8]) ∧
    decode true (.store 0x10 0 []) = .ok (.storeFail 0x10 0 []) ∧
    decode true .tick = .ok .tick ∧ decode false (.attach true) = .ok (.attach true)

/-- 00_scope.md A5: how a core's accesses at BASE + off arrive. -/
def Obligations.RoutedCoreAccessesArriveAsRequests : Prop :=
  ∀ off n v : Nat, Request.ofMemRead (Config.base + off) n = some (.load off n) ∧
    ∃ wdata, Request.ofMemWrite (Config.base + off) n v = some (.store off n wdata) ∧ wdata.length = n ∧
      ∀ i, i < n → wdata[i]? = some (BitVec.ofNat 8 (v / 2 ^ (8 * i)))

/-- R72's order: a rejection comes before any field. That `exec` of every LOAD or STORE row says so, of a row too that
no request decodes to or whose data has another length, is the model's choice (log 9, DESIGN CHOICE). -/
def Obligations.RejectionsComeBeforeTheRow : Prop :=
  ∀ (i : Instr) (s : State), s.fatal = false →
    (∃ off len, (encode i = .load off len ∨ ∃ wdata, encode i = .store off len wdata) ∧ (len = 0 ∨ s.attached = false)) →
    exec i s = .next { s with response := some .fail }

/-- Where `exec` stops: a LOAD or STORE row applied, on an attached device, to operands its opcode-table row does not
match. The stop is the model's own (log 9); the step never meets it. -/
def Obligations.RowIsRefusedExactlyOnOperandsOfAnotherRow : Prop :=
  ∀ (i : Instr) (s : State) (r : Refusal), exec i s = .refused r ↔
    s.fatal = false ∧ s.attached = true ∧ r = .rowNotSelected ∧ (i.wellFormed && i.selected true) = false ∧
      ∃ off len, len ≠ 0 ∧ (encode i = .load off len ∨ ∃ wdata, encode i = .store off len wdata)
end

