-- ==== Sys2Proof/Laws/Window.lean ====
section
/-! SUPPORT. The containment test and the decode as arithmetic. -/

namespace Sys2Proof.Machine

theorem contained_iff (off len s w : Nat) :
    contained off len s w = true ↔ 1 ≤ len ∧ s ≤ off ∧ off + len ≤ s + w := by
  simp [contained, and_assoc]

theorem contained_false_iff (off len s w : Nat) :
    contained off len s w = false ↔ ¬(1 ≤ len ∧ s ≤ off ∧ off + len ≤ s + w) := by
  rw [← contained_iff, Bool.not_eq_true]

theorem inSomeField_false_iff (off len : Nat) : inSomeField off len = false ↔ inNoSpan off len := by
  simp [inSomeField, fields, inField, fieldSpan, inNoSpan]

theorem inWindow_iff (off len : Nat) : inWindow off len = true ↔ off + len ≤ windowSize := by
  simp [inWindow]

/-- Every span lies inside the window, whatever its size (20_memory.md R51). -/
theorem le_windowSize : 0x20 ≤ windowSize := by
  simp [windowSize]

/-- A request that reaches past the window is in no span. -/
theorem inNoSpan_of_outside {off len : Nat} (h : windowSize < off + len) : inNoSpan off len := by
  have := le_windowSize
  simp only [inNoSpan, contained_false_iff]
  omega

end Sys2Proof.Machine
end

