-- ==== Sys2Proof/Laws/Decode.lean ====
section
/-! SUPPORT. What the decode of a LOAD or a STORE answers, class by class (30_encoding.md R72). -/

namespace Sys2Proof.Machine

theorem inField_pos {f : Field} {off len : Nat} (h : inField f off len = true) : 1 ≤ len :=
  ((contained_iff _ _ _ _).1 h).1

/-- A request contained in a field is decoded to that field, whatever the order of the tests. -/
theorem classify_of_inField {f : Field} {off len : Nat} (h : inField f off len = true) :
    classify true off len = .field f := by
  have hl := inField_pos h
  simp only [inField, contained_iff] at h
  obtain ⟨_, h1, h2⟩ := h
  simp only [classify, contained_iff]
  rcases f with (_ | _ | _ | _ | _ | _) | _ <;> simp only [fieldSpan] at h1 h2 <;>
    repeat' first | rw [if_pos (by omega)] | rw [if_neg (by omega)] | rw [if_neg Bool.noConfusion]

/-- A rejected request: length 0, or no core attached. -/
theorem classify_rejected {attached : Bool} {off len : Nat} (h : len = 0 ∨ attached = false) :
    classify attached off len = .rejectZeroLen ∨ classify attached off len = .rejectUnattached := by
  unfold classify
  split
  · exact .inl rfl
  · rw [if_pos (by tauto)]
    exact .inr rfl

/-- A request in no span: inside the window or not. -/
theorem classify_of_inNoSpan {off len : Nat} (hl : 1 ≤ len) (h : inNoSpan off len) :
    classify true off len = if inWindow off len then .unmappedInWindow else .outOfWindow := by
  obtain ⟨h0, h1, h2, h3, h4, h5, h6⟩ := h
  have : len ≠ 0 := by omega
  simp [classify, this, h0, h1, h2, h3, h4, h5, h6]

/-- The classes in full: a rejection, the field that contains the request, or in no span. -/
theorem classify_cases (attached : Bool) (off len : Nat) :
    ((len = 0 ∨ attached = false) ∧
        (classify attached off len = .rejectZeroLen ∨ classify attached off len = .rejectUnattached)) ∨
      (attached = true ∧ ∃ f, inField f off len = true ∧ classify attached off len = .field f) ∨
      (attached = true ∧ 1 ≤ len ∧ inNoSpan off len ∧
        classify attached off len = if inWindow off len then .unmappedInWindow else .outOfWindow) := by
  by_cases hr : len = 0 ∨ attached = false
  · exact .inl ⟨hr, classify_rejected hr⟩
  · simp only [not_or, Bool.not_eq_false] at hr
    obtain ⟨hl, rfl⟩ := hr
    have hl : 1 ≤ len := by omega
    by_cases hs : inSomeField off len = true
    · obtain ⟨f, _, hf⟩ := List.any_eq_true.1 hs
      exact .inr (.inl ⟨rfl, f, hf, classify_of_inField hf⟩)
    · have hs := (inSomeField_false_iff off len).1 (by simpa using hs)
      exact .inr (.inr ⟨rfl, hl, hs, classify_of_inNoSpan hl hs⟩)

end Sys2Proof.Machine
end

