-- ==== Sys2Proof/Laws/Operands.lean ====
section
/-! SUPPORT. What the operand forms do: each lane of a written half, each byte read, and the assembly of a 64-bit value from
its halves and back. -/

namespace Sys2Proof.Machine

/-- The value of four bytes appended, the first the most significant. -/
theorem toNat_append4 (a b c d : Byte) : (a ++ b ++ c ++ d : BitVec (8 + 8 + 8 + 8)).toNat =
    a.toNat * 2 ^ 24 + b.toNat * 2 ^ 16 + c.toNat * 2 ^ 8 + d.toNat := by
  simp only [BitVec.toNat_append, Nat.shiftLeft_eq]
  rw [Nat.mul_comm, ← Nat.two_pow_add_eq_or_of_lt d.isLt, Nat.mul_comm _ (2 ^ 8),
    ← Nat.two_pow_add_eq_or_of_lt c.isLt, Nat.mul_comm _ (2 ^ 8), ← Nat.two_pow_add_eq_or_of_lt b.isLt]
  omega

/-- Lane `j` of a written half is the new lane (30_encoding.md R73). -/
theorem byteOf_writeLanes (h : Word) (k len : Nat) (wdata : List Byte) {j : Nat} (hj : j < 4) :
    byteOf j (writeLanes h k len wdata) = newLane h k len wdata j := by
  have := (newLane h k len wdata 0).isLt
  have := (newLane h k len wdata 1).isLt
  have := (newLane h k len wdata 2).isLt
  have := (newLane h k len wdata 3).isLt
  apply BitVec.eq_of_toNat_eq
  rw [byteOf, BitVec.extractLsb'_toNat, Nat.shiftRight_eq_div_pow, writeLanes]
  erw [toNat_append4]
  rcases (by omega : j = 0 ∨ j = 1 ∨ j = 2 ∨ j = 3) with rfl | rfl | rfl | rfl <;> simp <;> omega

/-- A half is its four bytes. -/
theorem word_eq_of_bytes {a b : Word} (h : ∀ j, j < 4 → byteOf j a = byteOf j b) : a = b := by
  apply BitVec.eq_of_getLsbD_eq
  intro n hn
  have hb := congrArg (fun v : Byte => v.getLsbD (n % 8)) (h (n / 8) (by omega))
  have hlt : n % 8 < 8 := by omega
  have e : 8 * (n / 8) + n % 8 = n := by omega
  simpa [byteOf, BitVec.getLsbD_extractLsb', hlt, e] using hb

@[simp] theorem readBytes_length (v : BitVec n) (k len : Nat) : (readBytes v k len).length = len := by
  simp [readBytes]

/-- Byte `i` of a read is byte `k + i` of the field (30_encoding.md R74). -/
theorem readBytes_getElem? (v : BitVec n) (k len : Nat) {i : Nat} (hi : i < len) :
    (readBytes v k len)[i]? = some (byteOf (k + i) v) := by
  simp [readBytes, hi]

/-- What a STORE wrote, a LOAD of the same lanes reads. -/
theorem readBytes_writeLanes (v : Word) (k len : Nat) {wdata : List Byte} (hw : wdata.length = len) (hk : k + len ≤ 4) :
    readBytes (writeLanes v k len wdata) k len = wdata := by
  apply List.ext_getElem?
  intro i
  by_cases hi : i < len
  · have : i < wdata.length := by omega
    rw [readBytes_getElem? _ _ _ hi, byteOf_writeLanes _ _ _ _ (by omega), newLane, laneEnabled, if_pos (by simp; omega)]
    simp [this]
  · rw [List.getElem?_eq_none (by simp; omega), List.getElem?_eq_none (by omega)]

/-- Storing back what was read changes nothing. -/
theorem writeLanes_readBytes (v : Word) (k len : Nat) : writeLanes v k len (readBytes v k len) = v := by
  apply word_eq_of_bytes
  intro j hj
  rw [byteOf_writeLanes _ _ _ _ hj, newLane]
  split
  · rename_i h
    simp only [laneEnabled, Bool.and_eq_true, decide_eq_true_eq] at h
    have hlt : j - k < len := by omega
    have e : k + (j - k) = j := by omega
    simp [List.getD_eq_getElem?_getD, readBytes_getElem? _ _ _ hlt, e]
  · rfl

/-- Writing the same lanes again changes nothing. -/
theorem writeLanes_writeLanes (v : Word) (k len : Nat) (wdata : List Byte) :
    writeLanes (writeLanes v k len wdata) k len wdata = writeLanes v k len wdata := by
  apply word_eq_of_bytes
  intro j hj
  simp only [byteOf_writeLanes _ _ _ _ hj, newLane]
  split <;> rfl

theorem assemble_toNat (hi lo : Word) : (assemble hi lo).toNat = hi.toNat * 2 ^ 32 + lo.toNat := by
  simp only [assemble, BitVec.toNat_append]
  rw [Nat.shiftLeft_eq, Nat.mul_comm, Nat.two_pow_add_eq_or_of_lt lo.isLt]

@[simp] theorem loHalf_assemble (hi lo : Word) : loHalf (assemble hi lo) = lo := by
  apply BitVec.eq_of_toNat_eq
  have := lo.isLt
  simp only [loHalf, BitVec.extractLsb'_toNat, assemble_toNat, Nat.shiftRight_zero]
  omega

@[simp] theorem hiHalf_assemble (hi lo : Word) : hiHalf (assemble hi lo) = hi := by
  apply BitVec.eq_of_toNat_eq
  have h1 := lo.isLt
  have h2 := hi.isLt
  simp only [hiHalf, BitVec.extractLsb'_toNat, assemble_toNat, Nat.shiftRight_eq_div_pow]
  omega

@[simp] theorem assemble_halves (v : DWord) : assemble (hiHalf v) (loHalf v) = v := by
  apply BitVec.eq_of_toNat_eq
  have := v.isLt
  simp only [assemble_toNat, hiHalf, loHalf, BitVec.extractLsb'_toNat, Nat.shiftRight_eq_div_pow]
  omega

/-- The comparator compares as unsigned integers (42_tick_engine.md R146). -/
theorem conditionHolds_iff (m c : DWord) : conditionHolds m c = true ↔ c.toNat ≤ m.toNat := by
  simp [conditionHolds, BitVec.le_def]

end Sys2Proof.Machine
end

