-- ==== Sys2Proof/Laws/State.lean ====
section
/-! SUPPORT. One lemma per field per update of the state, so that no later proof unfolds a record update. -/

namespace Sys2Proof.Machine

variable (s : State)

/-! ### `State.respond` -/

@[simp] theorem State.respond_mtimeLo (r : Response) : (s.respond r).mtimeLo = s.mtimeLo := rfl
@[simp] theorem State.respond_mtimeHi (r : Response) : (s.respond r).mtimeHi = s.mtimeHi := rfl
@[simp] theorem State.respond_mtimecmpLo (r : Response) : (s.respond r).mtimecmpLo = s.mtimecmpLo := rfl
@[simp] theorem State.respond_mtimecmpHi (r : Response) : (s.respond r).mtimecmpHi = s.mtimecmpHi := rfl
@[simp] theorem State.respond_divLo (r : Response) : (s.respond r).divLo = s.divLo := rfl
@[simp] theorem State.respond_divHi (r : Response) : (s.respond r).divHi = s.divHi := rfl
@[simp] theorem State.respond_acc (r : Response) : (s.respond r).acc = s.acc := rfl
@[simp] theorem State.respond_attached (r : Response) : (s.respond r).attached = s.attached := rfl
@[simp] theorem State.respond_fatal (r : Response) : (s.respond r).fatal = s.fatal := rfl
@[simp] theorem State.respond_wcLast (r : Response) : (s.respond r).wcLast = s.wcLast := rfl
@[simp] theorem State.respond_coreGie (r : Response) : (s.respond r).coreGie = s.coreGie := rfl
@[simp] theorem State.respond_coreTie (r : Response) : (s.respond r).coreTie = s.coreTie := rfl
@[simp] theorem State.respond_coreTip (r : Response) : (s.respond r).coreTip = s.coreTip := rfl
@[simp] theorem State.respond_inputs (r : Response) : (s.respond r).inputs = s.inputs := rfl
@[simp] theorem State.respond_response (r : Response) : (s.respond r).response = some r := rfl
@[simp] theorem State.respond_clockDraws (r : Response) : (s.respond r).clockDraws = s.clockDraws := rfl

/-! ### `State.setMtime` -/

@[simp] theorem State.setMtime_mtimeLo (v : DWord) : (s.setMtime v).mtimeLo = loHalf v := rfl
@[simp] theorem State.setMtime_mtimeHi (v : DWord) : (s.setMtime v).mtimeHi = hiHalf v := rfl
@[simp] theorem State.setMtime_mtimecmpLo (v : DWord) : (s.setMtime v).mtimecmpLo = s.mtimecmpLo := rfl
@[simp] theorem State.setMtime_mtimecmpHi (v : DWord) : (s.setMtime v).mtimecmpHi = s.mtimecmpHi := rfl
@[simp] theorem State.setMtime_divLo (v : DWord) : (s.setMtime v).divLo = s.divLo := rfl
@[simp] theorem State.setMtime_divHi (v : DWord) : (s.setMtime v).divHi = s.divHi := rfl
@[simp] theorem State.setMtime_acc (v : DWord) : (s.setMtime v).acc = s.acc := rfl
@[simp] theorem State.setMtime_attached (v : DWord) : (s.setMtime v).attached = s.attached := rfl
@[simp] theorem State.setMtime_fatal (v : DWord) : (s.setMtime v).fatal = s.fatal := rfl
@[simp] theorem State.setMtime_wcLast (v : DWord) : (s.setMtime v).wcLast = s.wcLast := rfl
@[simp] theorem State.setMtime_coreGie (v : DWord) : (s.setMtime v).coreGie = s.coreGie := rfl
@[simp] theorem State.setMtime_coreTie (v : DWord) : (s.setMtime v).coreTie = s.coreTie := rfl
@[simp] theorem State.setMtime_coreTip (v : DWord) : (s.setMtime v).coreTip = s.coreTip := rfl
@[simp] theorem State.setMtime_inputs (v : DWord) : (s.setMtime v).inputs = s.inputs := rfl
@[simp] theorem State.setMtime_response (v : DWord) : (s.setMtime v).response = s.response := rfl
@[simp] theorem State.setMtime_clockDraws (v : DWord) : (s.setMtime v).clockDraws = s.clockDraws := rfl

/-! ### `State.drawClock` -/

@[simp] theorem State.drawClock_mtimeLo : (s.drawClock).mtimeLo = s.mtimeLo := rfl
@[simp] theorem State.drawClock_mtimeHi : (s.drawClock).mtimeHi = s.mtimeHi := rfl
@[simp] theorem State.drawClock_mtimecmpLo : (s.drawClock).mtimecmpLo = s.mtimecmpLo := rfl
@[simp] theorem State.drawClock_mtimecmpHi : (s.drawClock).mtimecmpHi = s.mtimecmpHi := rfl
@[simp] theorem State.drawClock_divLo : (s.drawClock).divLo = s.divLo := rfl
@[simp] theorem State.drawClock_divHi : (s.drawClock).divHi = s.divHi := rfl
@[simp] theorem State.drawClock_acc : (s.drawClock).acc = s.acc := rfl
@[simp] theorem State.drawClock_attached : (s.drawClock).attached = s.attached := rfl
@[simp] theorem State.drawClock_fatal : (s.drawClock).fatal = s.fatal := rfl
@[simp] theorem State.drawClock_wcLast : (s.drawClock).wcLast = some s.clockSample := rfl
@[simp] theorem State.drawClock_coreGie : (s.drawClock).coreGie = s.coreGie := rfl
@[simp] theorem State.drawClock_coreTie : (s.drawClock).coreTie = s.coreTie := rfl
@[simp] theorem State.drawClock_coreTip : (s.drawClock).coreTip = s.coreTip := rfl
@[simp] theorem State.drawClock_inputs : (s.drawClock).inputs = s.inputs := rfl
@[simp] theorem State.drawClock_response : (s.drawClock).response = s.response := rfl
@[simp] theorem State.drawClock_clockDraws : (s.drawClock).clockDraws = s.clockDraws + 1 := rfl

/-! ### `State.raiseFatal` -/

@[simp] theorem State.raiseFatal_mtimeLo : (s.raiseFatal).mtimeLo = s.mtimeLo := rfl
@[simp] theorem State.raiseFatal_mtimeHi : (s.raiseFatal).mtimeHi = s.mtimeHi := rfl
@[simp] theorem State.raiseFatal_mtimecmpLo : (s.raiseFatal).mtimecmpLo = s.mtimecmpLo := rfl
@[simp] theorem State.raiseFatal_mtimecmpHi : (s.raiseFatal).mtimecmpHi = s.mtimecmpHi := rfl
@[simp] theorem State.raiseFatal_divLo : (s.raiseFatal).divLo = s.divLo := rfl
@[simp] theorem State.raiseFatal_divHi : (s.raiseFatal).divHi = s.divHi := rfl
@[simp] theorem State.raiseFatal_acc : (s.raiseFatal).acc = s.acc := rfl
@[simp] theorem State.raiseFatal_attached : (s.raiseFatal).attached = s.attached := rfl
@[simp] theorem State.raiseFatal_fatal : (s.raiseFatal).fatal = true := rfl
@[simp] theorem State.raiseFatal_wcLast : (s.raiseFatal).wcLast = s.wcLast := rfl
@[simp] theorem State.raiseFatal_coreGie : (s.raiseFatal).coreGie = s.coreGie := rfl
@[simp] theorem State.raiseFatal_coreTie : (s.raiseFatal).coreTie = s.coreTie := rfl
@[simp] theorem State.raiseFatal_coreTip : (s.raiseFatal).coreTip = s.coreTip := rfl
@[simp] theorem State.raiseFatal_inputs : (s.raiseFatal).inputs = s.inputs := rfl
@[simp] theorem State.raiseFatal_response : (s.raiseFatal).response = some .fatalNoCore := rfl
@[simp] theorem State.raiseFatal_clockDraws : (s.raiseFatal).clockDraws = s.clockDraws := rfl

/-! ### `State.coreSets` -/

@[simp] theorem State.coreSets_mtimeLo (g t p : Bool) : (s.coreSets g t p).mtimeLo = s.mtimeLo := rfl
@[simp] theorem State.coreSets_mtimeHi (g t p : Bool) : (s.coreSets g t p).mtimeHi = s.mtimeHi := rfl
@[simp] theorem State.coreSets_mtimecmpLo (g t p : Bool) : (s.coreSets g t p).mtimecmpLo = s.mtimecmpLo := rfl
@[simp] theorem State.coreSets_mtimecmpHi (g t p : Bool) : (s.coreSets g t p).mtimecmpHi = s.mtimecmpHi := rfl
@[simp] theorem State.coreSets_divLo (g t p : Bool) : (s.coreSets g t p).divLo = s.divLo := rfl
@[simp] theorem State.coreSets_divHi (g t p : Bool) : (s.coreSets g t p).divHi = s.divHi := rfl
@[simp] theorem State.coreSets_acc (g t p : Bool) : (s.coreSets g t p).acc = s.acc := rfl
@[simp] theorem State.coreSets_attached (g t p : Bool) : (s.coreSets g t p).attached = s.attached := rfl
@[simp] theorem State.coreSets_fatal (g t p : Bool) : (s.coreSets g t p).fatal = s.fatal := rfl
@[simp] theorem State.coreSets_wcLast (g t p : Bool) : (s.coreSets g t p).wcLast = s.wcLast := rfl
@[simp] theorem State.coreSets_coreGie (g t p : Bool) : (s.coreSets g t p).coreGie = g := rfl
@[simp] theorem State.coreSets_coreTie (g t p : Bool) : (s.coreSets g t p).coreTie = t := rfl
@[simp] theorem State.coreSets_coreTip (g t p : Bool) : (s.coreSets g t p).coreTip = p := rfl
@[simp] theorem State.coreSets_inputs (g t p : Bool) : (s.coreSets g t p).inputs = s.inputs := rfl
@[simp] theorem State.coreSets_response (g t p : Bool) : (s.coreSets g t p).response = s.response := rfl
@[simp] theorem State.coreSets_clockDraws (g t p : Bool) : (s.coreSets g t p).clockDraws = s.clockDraws := rfl

/-! ### `State.control` -/

@[simp] theorem State.control_mtimeLo : (s.control).mtimeLo = s.mtimeLo := rfl
@[simp] theorem State.control_mtimeHi : (s.control).mtimeHi = s.mtimeHi := rfl
@[simp] theorem State.control_mtimecmpLo : (s.control).mtimecmpLo = s.mtimecmpLo := rfl
@[simp] theorem State.control_mtimecmpHi : (s.control).mtimecmpHi = s.mtimecmpHi := rfl
@[simp] theorem State.control_divLo : (s.control).divLo = s.divLo := rfl
@[simp] theorem State.control_divHi : (s.control).divHi = s.divHi := rfl
@[simp] theorem State.control_acc : (s.control).acc = s.acc := rfl
@[simp] theorem State.control_attached : (s.control).attached = s.attached := rfl
@[simp] theorem State.control_fatal : (s.control).fatal = s.fatal := rfl
@[simp] theorem State.control_wcLast : (s.control).wcLast = s.wcLast := rfl
@[simp] theorem State.control_coreGie : (s.control).coreGie = s.coreGie := rfl
@[simp] theorem State.control_coreTie : (s.control).coreTie = s.coreTie := rfl
@[simp] theorem State.control_coreTip : (s.control).coreTip = pendingAfter (conditionHolds s.mtime s.mtimecmp) s.coreGie s.coreTie s.coreTip := rfl
@[simp] theorem State.control_inputs : (s.control).inputs = s.inputs := rfl
@[simp] theorem State.control_response : (s.control).response = some (.irq (advisory (conditionHolds s.mtime s.mtimecmp) s.coreGie s.coreTie)) := rfl
@[simp] theorem State.control_clockDraws : (s.control).clockDraws = s.clockDraws := rfl

/-! ### `State.advance` leaves all but the accumulator and the counter -/

@[simp] theorem State.advance_mtimecmpLo : s.advance.mtimecmpLo = s.mtimecmpLo := by unfold State.advance; split <;> rfl
@[simp] theorem State.advance_mtimecmpHi : s.advance.mtimecmpHi = s.mtimecmpHi := by unfold State.advance; split <;> rfl
@[simp] theorem State.advance_divLo : s.advance.divLo = s.divLo := by unfold State.advance; split <;> rfl
@[simp] theorem State.advance_divHi : s.advance.divHi = s.divHi := by unfold State.advance; split <;> rfl
@[simp] theorem State.advance_attached : s.advance.attached = s.attached := by unfold State.advance; split <;> rfl
@[simp] theorem State.advance_fatal : s.advance.fatal = s.fatal := by unfold State.advance; split <;> rfl
@[simp] theorem State.advance_wcLast : s.advance.wcLast = s.wcLast := by unfold State.advance; split <;> rfl
@[simp] theorem State.advance_coreGie : s.advance.coreGie = s.coreGie := by unfold State.advance; split <;> rfl
@[simp] theorem State.advance_coreTie : s.advance.coreTie = s.coreTie := by unfold State.advance; split <;> rfl
@[simp] theorem State.advance_coreTip : s.advance.coreTip = s.coreTip := by unfold State.advance; split <;> rfl
@[simp] theorem State.advance_inputs : s.advance.inputs = s.inputs := by unfold State.advance; split <;> rfl
@[simp] theorem State.advance_response : s.advance.response = s.response := by unfold State.advance; split <;> rfl
@[simp] theorem State.advance_clockDraws : s.advance.clockDraws = s.clockDraws := by unfold State.advance; split <;> rfl

/-! ### `State.setHalf` writes one half and leaves all else -/

@[simp] theorem State.half_setHalf (h k : Half) (v : Word) : (s.setHalf h v).half k = if k = h then v else s.half k := by
  cases h <;> cases k <;> rfl
@[simp] theorem State.setHalf_half (h : Half) : s.setHalf h (s.half h) = s := by cases h <;> rfl
@[simp] theorem State.setHalf_acc (h : Half) (v : Word) : (s.setHalf h v).acc = s.acc := by cases h <;> rfl
@[simp] theorem State.setHalf_attached (h : Half) (v : Word) : (s.setHalf h v).attached = s.attached := by cases h <;> rfl
@[simp] theorem State.setHalf_fatal (h : Half) (v : Word) : (s.setHalf h v).fatal = s.fatal := by cases h <;> rfl
@[simp] theorem State.setHalf_wcLast (h : Half) (v : Word) : (s.setHalf h v).wcLast = s.wcLast := by cases h <;> rfl
@[simp] theorem State.setHalf_coreGie (h : Half) (v : Word) : (s.setHalf h v).coreGie = s.coreGie := by cases h <;> rfl
@[simp] theorem State.setHalf_coreTie (h : Half) (v : Word) : (s.setHalf h v).coreTie = s.coreTie := by cases h <;> rfl
@[simp] theorem State.setHalf_coreTip (h : Half) (v : Word) : (s.setHalf h v).coreTip = s.coreTip := by cases h <;> rfl
@[simp] theorem State.setHalf_inputs (h : Half) (v : Word) : (s.setHalf h v).inputs = s.inputs := by cases h <;> rfl
@[simp] theorem State.setHalf_response (h : Half) (v : Word) : (s.setHalf h v).response = s.response := by cases h <;> rfl
@[simp] theorem State.setHalf_clockDraws (h : Half) (v : Word) : (s.setHalf h v).clockDraws = s.clockDraws := by cases h <;> rfl

end Sys2Proof.Machine
end

