-- ==== Sys2Proof/Laws/Ops.lean ====
section
/-! SUPPORT. What each shared operation can do, said once: the admission and service of a request, the wall-clock draw, the
prescaler, and the step. -/

namespace Sys2Proof.Machine

/-- If a served request answers a next state, either it was rejected, and only answered FAIL, or the row served it. -/
theorem State.serve_next {s t served : State} {len : Nat} {row : Bool} (h : s.serve len row served = .next t) :
    s.fatal = false ∧ (((len = 0 ∨ s.attached = false) ∧ t = s.respond .fail) ∨
      (len ≠ 0 ∧ s.attached = true ∧ row = true ∧ t = served)) := by
  unfold State.serve State.unlessFatal at h
  split at h
  · cases h
  · rename_i hf
    refine ⟨by simpa using hf, ?_⟩
    split at h
    · cases h; exact .inl ⟨‹_›, rfl⟩
    · rename_i hr
      split at h
      · cases h
        simp only [not_or, Bool.not_eq_false] at hr
        exact .inr ⟨hr.1, hr.2, ‹_›, rfl⟩
      · cases h

/-- A rejected request answers FAIL and changes nothing else. -/
theorem State.serve_rejected {s : State} (len : Nat) (row : Bool) (served : State) (hf : s.fatal = false)
    (h : len = 0 ∨ s.attached = false) : s.serve len row served = .next (s.respond .fail) := by
  simp [State.serve, State.unlessFatal, hf, h]

/-- A request whose row holds is served. -/
theorem State.serve_served {s : State} {len : Nat} {row : Bool} (served : State) (hf : s.fatal = false)
    (ha : s.attached = true) (hl : 1 ≤ len) (hr : row = true) : s.serve len row served = .next served := by
  have : len ≠ 0 := by omega
  simp [State.serve, State.unlessFatal, hf, ha, hr, this]

/-- A request whose row holds is served where both answer FAIL alike. -/
theorem State.serve_fail {s : State} {len : Nat} {row : Bool} (hf : s.fatal = false)
    (h : len = 0 ∨ s.attached = false ∨ row = true) : s.serve len row (s.respond .fail) = .next (s.respond .fail) := by
  unfold State.serve State.unlessFatal
  rw [if_neg (by simp [hf])]
  split
  · rfl
  · rw [if_pos (by tauto)]

/-- A served request never faults but after the fatal stop. -/
theorem State.serve_fault {s served : State} {len : Nat} {row : Bool} {f : Fault}
    (h : s.serve len row served = .fault f) : s.fatal = true ∧ f = .noCore := by
  unfold State.serve State.unlessFatal at h
  split at h
  · cases h; exact ⟨‹_›, rfl⟩
  · split at h
    · cases h
    · split at h <;> cases h

/-- The register file's byte `j` of a half is at the half's span start plus `j` (20_memory.md R54). -/
theorem State.byteAt_half (s : State) (h : Half) {j : Nat} (hj : j < 4) :
    s.byteAt ((fieldSpan (.half h)).1 + j) = some (byteOf j (s.half h)) := by
  rcases (by omega : j = 0 ∨ j = 1 ∨ j = 2 ∨ j = 3) with rfl | rfl | rfl | rfl <;> cases h <;> rfl

/-- The sample drawn is at or above the last one (10_state.md R29). -/
theorem State.le_clockSample {s : State} {p : DWord} (h : s.wcLast = some p) : p ≤ s.clockSample := by
  simp only [State.clockSample, h]
  split
  · assumption
  · exact BitVec.le_refl p

/-- The sample drawn is at or above the clock's answer. -/
theorem State.wallClock_le_clockSample (s : State) : Config.wallClock s.clockDraws ≤ s.clockSample := by
  unfold State.clockSample
  split
  · exact BitVec.le_refl _
  · split
    · exact BitVec.le_refl _
    · rename_i hp
      simp only [BitVec.le_def] at hp ⊢
      omega

/-- The prescaler: rollover at equality, else one more tick counted (42_tick_engine.md R142 to R144). -/
theorem State.advance_rollover {s : State} (h : s.acc + 1 = s.divisor) :
    s.advance = { s with acc := 0, mtimeLo := loHalf (s.mtime + 1), mtimeHi := hiHalf (s.mtime + 1) } := by
  rw [State.advance, if_pos h]; rfl

theorem State.advance_count {s : State} (h : s.acc + 1 ≠ s.divisor) : s.advance = { s with acc := s.acc + 1 } := by
  rw [State.advance, if_neg h]

@[simp] theorem State.setMtime_mtime (s : State) (v : DWord) : (s.setMtime v).mtime = v := by
  simp [State.mtime]

@[simp] theorem State.respond_mtime (s : State) (r : Response) : (s.respond r).mtime = s.mtime := rfl
@[simp] theorem State.respond_mtimecmp (s : State) (r : Response) : (s.respond r).mtimecmp = s.mtimecmp := rfl
@[simp] theorem State.respond_divisor (s : State) (r : Response) : (s.respond r).divisor = s.divisor := rfl
@[simp] theorem State.control_mtime (s : State) : s.control.mtime = s.mtime := rfl
@[simp] theorem State.control_mtimecmp (s : State) : s.control.mtimecmp = s.mtimecmp := rfl
@[simp] theorem State.control_divisor (s : State) : s.control.divisor = s.divisor := rfl

@[simp] theorem State.advance_mtimecmp (s : State) : s.advance.mtimecmp = s.mtimecmp := by
  simp [State.mtimecmp]

@[simp] theorem State.advance_divisor (s : State) : s.advance.divisor = s.divisor := by
  simp [State.divisor]

/-- The counter after the prescaler: one more at rollover, and only then (42_tick_engine.md R144). -/
theorem State.advance_mtime (s : State) :
    s.advance.mtime = if s.acc + 1 = s.divisor then s.mtime + 1 else s.mtime := by
  split
  · rw [State.advance_rollover ‹_›]; exact assemble_halves _
  · rw [State.advance_count ‹_›]; rfl

/-- The accumulator after the prescaler (42_tick_engine.md R142, R143). -/
theorem State.advance_acc (s : State) : s.advance.acc = if s.acc + 1 = s.divisor then 0 else s.acc + 1 := by
  split
  · rw [State.advance_rollover ‹_›]
  · rw [State.advance_count ‹_›]

/-- If a step answers a next state, the device is not fatally stopped and one of these holds: nothing was pending, the
core set its flags, or the next request's instruction ran. -/
theorem step_next {s t : State} (h : step s = .next t) :
    s.fatal = false ∧ ((s.inputs = [] ∧ t = s) ∨
      (∃ gie tie tip rest, s.inputs = .core gie tie tip :: rest ∧
        t = ({ s with inputs := rest } : State).coreSets gie tie tip) ∨
      ∃ r rest i, s.inputs = .request r :: rest ∧ decode s.attached r = .ok i ∧
        exec i { s with inputs := rest } = .next t) := by
  unfold step at h
  split at h
  · cases h
  · rename_i hf
    refine ⟨by simpa using hf, ?_⟩
    split at h
    · cases h; exact .inl ⟨‹_›, rfl⟩
    · cases h; exact .inr (.inl ⟨_, _, _, _, ‹_›, rfl⟩)
    · split at h
      · exact .inr (.inr ⟨_, _, _, ‹_›, ‹_›, h⟩)
      · cases h

end Sys2Proof.Machine
end

