-- ==== Sys2Proof/Laws/Exec.lean ====
section
/-! SUPPORT. What an instruction can do, said once: the ways to a next state. -/

namespace Sys2Proof.Machine

/-- `Effect s i t`: from `s` the instruction `i` leads to `t`. -/
inductive Effect (s : State) : Instr → State → Prop where
  /-- Any LOAD or STORE that is rejected, or whose row fails: only FAIL is answered. -/
  | failed (i : Instr) : (∀ p, i ≠ .attach p) → i ≠ .tick → Effect s i (s.respond .fail)
  /-- A LOAD of a half. -/
  | answered (h : Half) (off len : Nat) : s.attached = true → inField (.half h) off len = true →
      Effect s (loadRow off len (.field (.half h))) (s.answerHalf h off len)
  /-- A LOAD of the wall-clock field. -/
  | sampled (off len : Nat) : s.attached = true → inField .wallclock off len = true →
      Effect s (.loadWallclock off len) (s.answerWallclock off len)
  /-- A STORE to a half. -/
  | stored (h : Half) (off len : Nat) (wdata : List Byte) : s.attached = true → inField (.half h) off len = true →
      wdata.length = len →
      Effect s (storeRow off len wdata (.field (.half h))) (s.storeHalf h off len wdata)
  /-- A STORE inside the window and in no field. -/
  | ignored (off len : Nat) (wdata : List Byte) : s.attached = true → inWindow off len = true → inSomeField off len = false →
      Effect s (.storeNop off len wdata) (s.respond .ok)
  /-- TICK with the divisor 0. -/
  | disabled : s.attached = true → s.divisor = 0 → Effect s .tick (s.respond (.irq false))
  /-- TICK with a nonzero divisor. -/
  | ticked : s.attached = true → s.divisor ≠ 0 → Effect s .tick s.advance.control
  /-- ATTACH with the core present. -/
  | bound : s.attached = false → Effect s (.attach true) ({ s with attached := true }.respond .ok)
  /-- ATTACH with no core. -/
  | stopped : s.attached = false → Effect s (.attach false) s.raiseFatal

/-- If an instruction answers a next state, the device is not fatally stopped and the next state is one of `Effect`'s. -/
theorem exec_next {i : Instr} {s t : State} (h : exec i s = .next t) : s.fatal = false ∧ Effect s i t := by
  cases i
  case tick =>
    simp only [exec, execTick, State.unlessFatal] at h
    split at h
    · cases h
    · rename_i hf
      split at h
      · cases h
      · rename_i ha
        cases h
        refine ⟨by simpa using hf, ?_⟩
        unfold State.tick
        split
        · exact .disabled (by simpa using ha) ‹_›
        · exact .ticked (by simpa using ha) ‹_›
  case attach p =>
    simp only [exec, execAttach, State.unlessFatal] at h
    split at h
    · cases h
    · rename_i hf
      split at h
      · cases h
      · rename_i ha
        cases h
        refine ⟨by simpa using hf, ?_⟩
        cases p
        · exact .stopped (by simpa using ha)
        · exact .bound (by simpa using ha)
  all_goals
    obtain ⟨hf, ⟨_, rfl⟩ | ⟨_, ha, hr, rfl⟩⟩ := State.serve_next h
    · exact ⟨hf, .failed _ (by simp) (by simp)⟩
    · refine ⟨hf, ?_⟩
      try simp only [Bool.and_eq_true, beq_iff_eq, Bool.not_eq_true'] at hr
      first
        | exact .failed _ (by simp) (by simp)
        | exact .sampled _ _ ha hr
        | exact .answered .mtimeLo _ _ ha hr
        | exact .answered .mtimeHi _ _ ha hr
        | exact .answered .mtimecmpLo _ _ ha hr
        | exact .answered .mtimecmpHi _ _ ha hr
        | exact .answered .divLo _ _ ha hr
        | exact .answered .divHi _ _ ha hr
        | exact .ignored _ _ _ ha hr.1.1 hr.1.2
        | exact .stored .mtimeLo _ _ _ ha hr.1 hr.2
        | exact .stored .mtimeHi _ _ _ ha hr.1 hr.2
        | exact .stored .mtimecmpLo _ _ _ ha hr.1 hr.2
        | exact .stored .mtimecmpHi _ _ _ ha hr.1 hr.2
        | exact .stored .divLo _ _ _ ha hr.1 hr.2
        | exact .stored .divHi _ _ _ ha hr.1 hr.2

/-- After the fatal stop every instruction faults. -/
theorem exec_of_fatal {s : State} (h : s.fatal = true) (i : Instr) : exec i s = .fault .noCore := by
  cases i <;> exact if_pos h

/-! ### The row a request decodes to, run on the state it was decoded on -/

section
variable {s : State} {off len : Nat}

theorem exec_load_rejected (hf : s.fatal = false) (h : len = 0 ∨ s.attached = false) :
    exec (loadRow off len (classify s.attached off len)) s = .next (s.respond .fail) := by
  rcases classify_rejected (off := off) h with e | e <;> rw [e] <;> exact State.serve_rejected _ _ _ hf h

theorem exec_load_half (hs : s.ready) {h : Half} (hi : inField (.half h) off len = true) :
    exec (loadRow off len (classify s.attached off len)) s = .next (s.answerHalf h off len) := by
  rw [hs.1, classify_of_inField hi]
  cases h <;> exact State.serve_served _ hs.2 hs.1 (inField_pos hi) hi

theorem exec_load_wallclock (hs : s.ready) (hi : inField .wallclock off len = true) :
    exec (loadRow off len (classify s.attached off len)) s = .next (s.answerWallclock off len) := by
  rw [hs.1, classify_of_inField hi]
  exact State.serve_served _ hs.2 hs.1 (inField_pos hi) hi

theorem exec_load_unmapped (hs : s.ready) (hl : 1 ≤ len) (hi : inNoSpan off len) :
    exec (loadRow off len (classify s.attached off len)) s = .next (s.respond .fail) := by
  have hn := (inSomeField_false_iff off len).2 hi
  rw [hs.1, classify_of_inNoSpan hl hi]
  split <;> exact State.serve_served _ hs.2 hs.1 hl (by simp [hn])

variable {wdata : List Byte}

theorem exec_store_rejected (hf : s.fatal = false) (h : len = 0 ∨ s.attached = false) :
    exec (storeRow off len wdata (classify s.attached off len)) s = .next (s.respond .fail) := by
  rcases classify_rejected (off := off) h with e | e <;> rw [e] <;> exact State.serve_rejected _ _ _ hf h

theorem exec_store_half (hs : s.ready) {h : Half} (hi : inField (.half h) off len = true) (hw : wdata.length = len) :
    exec (storeRow off len wdata (classify s.attached off len)) s = .next (s.storeHalf h off len wdata) := by
  rw [hs.1, classify_of_inField hi]
  cases h <;> exact State.serve_served _ hs.2 hs.1 (inField_pos hi) (by simp [hi, hw])

theorem exec_store_wallclock (hs : s.ready) (hi : inField .wallclock off len = true) (hw : wdata.length = len) :
    exec (storeRow off len wdata (classify s.attached off len)) s = .next (s.respond .fail) := by
  rw [hs.1, classify_of_inField hi]
  exact State.serve_served _ hs.2 hs.1 (inField_pos hi) (by simp [hi, hw])

theorem exec_store_unmapped (hs : s.ready) (hl : 1 ≤ len) (hi : inNoSpan off len) (hw : wdata.length = len) :
    exec (storeRow off len wdata (classify s.attached off len)) s =
      .next (s.respond (if inWindow off len then .ok else .fail)) := by
  have hn := (inSomeField_false_iff off len).2 hi
  rw [hs.1, classify_of_inNoSpan hl hi]
  split
  · exact State.serve_served _ hs.2 hs.1 hl (by simp [*])
  · exact State.serve_served _ hs.2 hs.1 hl (by simp [*])

end

/-! ### The step on each kind of request -/

section
variable {s : State} {rest : List Input}

theorem step_load {off len : Nat} (hf : s.fatal = false) (h : s.inputs = .request (.load off len) :: rest) :
    step s = exec (loadRow off len (classify s.attached off len)) { s with inputs := rest } := by
  simp only [step, hf, h, decode]
  rfl

theorem step_store {off len : Nat} {wdata : List Byte} (hf : s.fatal = false) (hw : wdata.length = len)
    (h : s.inputs = .request (.store off len wdata) :: rest) :
    step s = exec (storeRow off len wdata (classify s.attached off len)) { s with inputs := rest } := by
  simp only [step, hf, h, decode, if_pos hw]
  rfl

theorem step_tick (hs : s.ready) (h : s.inputs = .request .tick :: rest) :
    step s = .next ({ s with inputs := rest } : State).tick := by
  simp [step, hs.1, hs.2, h, decode, exec, execTick, State.unlessFatal]

end

end Sys2Proof.Machine
end

