-- ==== Sys2Proof/Laws/PerInstr.lean ====
section
/-! SUPPORT. The families of statements made instruction by instruction. -/

/-- The request of a well-formed instruction is a tuple of 30_encoding.md R70: a STORE's data has the stated length, and no
instruction is a fetch or a request of a foreign kind. -/
def Sys2Proof.Laws.EncodeWellFormed.Statement (i : Sys2Proof.Instr) : Prop :=
  i.wellFormed = true →
    match Sys2Proof.encode i with
    | .store _ len wdata => wdata.length = len
    | .load _ _ | .tick | .attach _ => True
    | .fetch _ _ | .foreign _ => False

namespace Sys2Proof.Laws.EncodeWellFormed

theorem loadMtimeLo (off len : Nat) : Statement (.loadMtimeLo off len) := fun _ => trivial

theorem loadMtimeHi (off len : Nat) : Statement (.loadMtimeHi off len) := fun _ => trivial

theorem loadMtimecmpLo (off len : Nat) : Statement (.loadMtimecmpLo off len) := fun _ => trivial

theorem loadMtimecmpHi (off len : Nat) : Statement (.loadMtimecmpHi off len) := fun _ => trivial

theorem loadDivLo (off len : Nat) : Statement (.loadDivLo off len) := fun _ => trivial

theorem loadDivHi (off len : Nat) : Statement (.loadDivHi off len) := fun _ => trivial

theorem loadWallclock (off len : Nat) : Statement (.loadWallclock off len) := fun _ => trivial

theorem loadFail (off len : Nat) : Statement (.loadFail off len) := fun _ => trivial

theorem storeMtimeLo (off len : Nat) (wdata : List Byte) : Statement (.storeMtimeLo off len wdata) := fun h => by
  simp only [Instr.wellFormed, Bool.and_eq_true, beq_iff_eq] at h
  simp [encode, h]

theorem storeMtimeHi (off len : Nat) (wdata : List Byte) : Statement (.storeMtimeHi off len wdata) := fun h => by
  simp only [Instr.wellFormed, Bool.and_eq_true, beq_iff_eq] at h
  simp [encode, h]

theorem storeMtimecmpLo (off len : Nat) (wdata : List Byte) : Statement (.storeMtimecmpLo off len wdata) := fun h => by
  simp only [Instr.wellFormed, Bool.and_eq_true, beq_iff_eq] at h
  simp [encode, h]

theorem storeMtimecmpHi (off len : Nat) (wdata : List Byte) : Statement (.storeMtimecmpHi off len wdata) := fun h => by
  simp only [Instr.wellFormed, Bool.and_eq_true, beq_iff_eq] at h
  simp [encode, h]

theorem storeDivLo (off len : Nat) (wdata : List Byte) : Statement (.storeDivLo off len wdata) := fun h => by
  simp only [Instr.wellFormed, Bool.and_eq_true, beq_iff_eq] at h
  simp [encode, h]

theorem storeDivHi (off len : Nat) (wdata : List Byte) : Statement (.storeDivHi off len wdata) := fun h => by
  simp only [Instr.wellFormed, Bool.and_eq_true, beq_iff_eq] at h
  simp [encode, h]

theorem storeWallclock (off len : Nat) (wdata : List Byte) : Statement (.storeWallclock off len wdata) := fun h => by
  simp only [Instr.wellFormed, Bool.and_eq_true, beq_iff_eq] at h
  simp [encode, h]

theorem storeNop (off len : Nat) (wdata : List Byte) : Statement (.storeNop off len wdata) := fun h => by
  simp only [Instr.wellFormed, Bool.and_eq_true, beq_iff_eq] at h
  simp [encode, h]

theorem storeFail (off len : Nat) (wdata : List Byte) : Statement (.storeFail off len wdata) := fun h => by
  simp only [Instr.wellFormed, beq_iff_eq] at h
  simp [encode, h]

theorem tick : Statement .tick := fun _ => trivial

theorem attach (corePresent : Bool) : Statement (.attach corePresent) := fun _ => trivial

end Sys2Proof.Laws.EncodeWellFormed
end

