-- ==== Sys2Proof/Tests/Slice0.lean ====
section
/-! SUPPORT. The model's own tests. Every expected value is the spec's: the row of spec/95_test_vectors.md or the rule of
spec/ that each docstring names. Part 4 shows, for each statement with hypotheses, that they can be met. -/

namespace Sys2Proof.Tests

open Sys2Proof Sys2Proof.Machine

/-- The start state S0 of 95_test_vectors.md part 2, with the accumulator and the core's flags clear. -/
def s0 : State where
  mtimeLo := 0x12345678
  mtimeHi := 0x9ABCDEF0
  mtimecmpLo := 0x00000005
  mtimecmpHi := 0xAABBCCDD
  divLo := 0x00000002
  divHi := 0x80000000
  acc := 0
  attached := true
  fatal := false
  wcLast := none
  coreGie := false
  coreTie := false
  coreTip := false
  inputs := []
  response := none
  clockDraws := 0

/-- S0 before ATTACH. -/
def unbound : State := { s0 with attached := false }

/-- S0 after the fatal stop. -/
def stopped : State := { s0 with attached := false, fatal := true }

/-- A tick state `(DIV, acc, MTIME, MTIMECMP | GIE, TIE, TIP)` of 95_test_vectors.md. -/
def tickState (div acc m c : DWord) (gie tie tip : Bool) : State :=
  { s0 with mtimeLo := loHalf m, mtimeHi := hiHalf m, mtimecmpLo := loHalf c, mtimecmpHi := hiHalf c, divLo := loHalf div, divHi := hiHalf div, acc := acc, coreGie := gie, coreTie := tie, coreTip := tip }

/-- The step that a request makes on a state. -/
def issue (s : State) (r : Request) : Host.Outcome State Fault Refusal :=
  step { s with inputs := [.request r] }

/-- The step that a request makes on S0 answers `r` and leaves S0 as it is otherwise. -/
def answers (q : Request) (r : Response) : Prop :=
  issue s0 q = .next { s0 with response := some r }

/-- The outcome of a TICK on a tick state is `(acc', MTIME', TIP' ; return)`, and nothing else has changed. -/
def ticksTo (s : State) (acc m : DWord) (tip irq : Bool) : Prop :=
  exec .tick s = .next { s with acc := acc, mtimeLo := loHalf m, mtimeHi := hiHalf m, coreTip := tip, response := some (.irq irq) }

/-! ### 1. Well-formedness: an ill-formed term for each check -/

/-- R71: crosses the end of its span. -/
theorem test_wf_loadMtimeLo : (Instr.loadMtimeLo 0x3 2).wellFormed = false := by decide

/-- R70: data of the wrong length; R71: crosses the end of its span. -/
theorem test_wf_storeMtimeLo : (Instr.storeMtimeLo 0x0 2 [1]).wellFormed = false ∧ (Instr.storeMtimeLo 0x3 2 [1, 2]).wellFormed = false := by decide

/-- R71: crosses the end of its span. -/
theorem test_wf_loadMtimeHi : (Instr.loadMtimeHi 0x7 2).wellFormed = false := by decide

/-- R70: data of the wrong length; R71: crosses the end of its span. -/
theorem test_wf_storeMtimeHi : (Instr.storeMtimeHi 0x4 2 [1]).wellFormed = false ∧ (Instr.storeMtimeHi 0x7 2 [1, 2]).wellFormed = false := by decide

/-- R71: crosses the end of its span. -/
theorem test_wf_loadMtimecmpLo : (Instr.loadMtimecmpLo 0xb 2).wellFormed = false := by decide

/-- R70: data of the wrong length; R71: crosses the end of its span. -/
theorem test_wf_storeMtimecmpLo : (Instr.storeMtimecmpLo 0x8 2 [1]).wellFormed = false ∧ (Instr.storeMtimecmpLo 0xb 2 [1, 2]).wellFormed = false := by decide

/-- R71: crosses the end of its span. -/
theorem test_wf_loadMtimecmpHi : (Instr.loadMtimecmpHi 0xf 2).wellFormed = false := by decide

/-- R70: data of the wrong length; R71: crosses the end of its span. -/
theorem test_wf_storeMtimecmpHi : (Instr.storeMtimecmpHi 0xc 2 [1]).wellFormed = false ∧ (Instr.storeMtimecmpHi 0xf 2 [1, 2]).wellFormed = false := by decide

/-- R71: crosses the end of its span. -/
theorem test_wf_loadDivLo : (Instr.loadDivLo 0x13 2).wellFormed = false := by decide

/-- R70: data of the wrong length; R71: crosses the end of its span. -/
theorem test_wf_storeDivLo : (Instr.storeDivLo 0x10 2 [1]).wellFormed = false ∧ (Instr.storeDivLo 0x13 2 [1, 2]).wellFormed = false := by decide

/-- R71: crosses the end of its span. -/
theorem test_wf_loadDivHi : (Instr.loadDivHi 0x17 2).wellFormed = false := by decide

/-- R70: data of the wrong length; R71: crosses the end of its span. -/
theorem test_wf_storeDivHi : (Instr.storeDivHi 0x14 2 [1]).wellFormed = false ∧ (Instr.storeDivHi 0x17 2 [1, 2]).wellFormed = false := by decide

/-- R71: crosses the end of its span, and a length of 0. -/
theorem test_wf_loadWallclock : (Instr.loadWallclock 0x1E 4).wellFormed = false ∧ (Instr.loadWallclock 0x18 0).wellFormed = false := by decide

/-- R70: data of the wrong length; R71: crosses the start of its span. -/
theorem test_wf_storeWallclock : (Instr.storeWallclock 0x18 2 [1]).wellFormed = false ∧ (Instr.storeWallclock 0x16 4 [1, 2, 3, 4]).wellFormed = false := by decide

/-- R128: length 0, data of the wrong length, and a request contained in a field. -/
theorem test_wf_storeNop : (Instr.storeNop 0x02 0 []).wellFormed = false ∧ (Instr.storeNop 0x02 4 [1]).wellFormed = false ∧ (Instr.storeNop 0x02 2 [1, 2]).wellFormed = false := by decide

/-- R128: one byte past the window, whatever the window's size. -/
theorem test_wf_storeNop_outside : (Instr.storeNop windowSize 1 [1]).wellFormed = false := by
  simp [Instr.wellFormed, inWindow]

/-- R70: data of the wrong length. -/
theorem test_wf_storeFail : (Instr.storeFail 0x10 0 [1]).wellFormed = false := by decide

/-! ### 2. Decode: every row by a request of the spec -/

/-- L2. -/
theorem test_decode_loadMtimeLo : decode true (.load 0x01 2) = .ok (.loadMtimeLo 0x01 2) := rfl

/-- L9. -/
theorem test_decode_loadMtimeHi : decode true (.load 0x07 1) = .ok (.loadMtimeHi 0x07 1) := rfl

/-- L10. -/
theorem test_decode_loadMtimecmpLo : decode true (.load 0x08 4) = .ok (.loadMtimecmpLo 0x08 4) := rfl

/-- L12. -/
theorem test_decode_loadMtimecmpHi : decode true (.load 0x0E 2) = .ok (.loadMtimecmpHi 0x0E 2) := rfl

/-- L13. -/
theorem test_decode_loadDivLo : decode true (.load 0x10 4) = .ok (.loadDivLo 0x10 4) := rfl

/-- L14. -/
theorem test_decode_loadDivHi : decode true (.load 0x14 4) = .ok (.loadDivHi 0x14 4) := rfl

/-- L18. -/
theorem test_decode_loadWallclock : decode true (.load 0x1F 1) = .ok (.loadWallclock 0x1F 1) := rfl

/-- L20. -/
theorem test_decode_loadFail : decode true (.load 0x16 4) = .ok (.loadFail 0x16 4) := rfl

/-- W3. -/
theorem test_decode_storeMtimeLo : decode true (.store 0x01 3 [0x11, 0x22, 0x33]) = .ok (.storeMtimeLo 0x01 3 [0x11, 0x22, 0x33]) := rfl

/-- W4. -/
theorem test_decode_storeMtimeHi : decode true (.store 0x07 1 [0x00]) = .ok (.storeMtimeHi 0x07 1 [0x00]) := rfl

/-- E8. -/
theorem test_decode_storeMtimecmpLo : decode true (.store 0x08 4 [0x05, 0, 0, 0]) = .ok (.storeMtimecmpLo 0x08 4 [0x05, 0, 0, 0]) := rfl

/-- W6. -/
theorem test_decode_storeMtimecmpHi : decode true (.store 0x0C 2 [0, 0]) = .ok (.storeMtimecmpHi 0x0C 2 [0, 0]) := rfl

/-- P3 line 1. -/
theorem test_decode_storeDivLo : decode true (.store 0x11 2 [0xAA, 0xBB]) = .ok (.storeDivLo 0x11 2 [0xAA, 0xBB]) := rfl

/-- the example of R126. -/
theorem test_decode_storeDivHi : decode true (.store 0x17 1 [0x80]) = .ok (.storeDivHi 0x17 1 [0x80]) := rfl

/-- W11. -/
theorem test_decode_storeWallclock : decode true (.store 0x1C 4 [0, 0, 0, 0]) = .ok (.storeWallclock 0x1C 4 [0, 0, 0, 0]) := rfl

/-- W13. -/
theorem test_decode_storeNop : decode true (.store 0x03 2 [0x11, 0x22]) = .ok (.storeNop 0x03 2 [0x11, 0x22]) := rfl

/-- W19. -/
theorem test_decode_storeFail : decode false (.store 0x08 4 [0x05, 0, 0, 0]) = .ok (.storeFail 0x08 4 [0x05, 0, 0, 0]) := rfl

/-- T1. -/
theorem test_decode_tick : decode true (.tick) = .ok (.tick) := rfl

/-- A3. -/
theorem test_decode_attach : decode false (.attach false) = .ok (.attach false) := rfl

/-- W15, W16 at the window's own end: a STORE past it is STORE.FAIL whatever its size (R129). -/
theorem test_decode_storeFail_outside : decode true (.store windowSize 1 [1]) = .ok (.storeFail windowSize 1 [1]) := by
  have hs := le_windowSize
  have hn : inNoSpan windowSize 1 := inNoSpan_of_outside (by omega)
  simp [decode, classify_of_inNoSpan (Nat.le_refl 1) hn, inWindow, storeRow]

/-- R65, R64: no operation of the block. -/
theorem test_decode_rejects : decode true (.fetch 0x00 4) = .error .fetchFromWindow ∧ decode true (.foreign 9) = .error (.unknownKind 9) ∧ decode true (.store 0x00 2 [1]) = .error .wdataLength := ⟨rfl, rfl, rfl⟩

/-- L2 in the model's byte form (log 8): kind 0, length 2, offset 1. -/
theorem test_word_load : decodeTableWord 80 0x10200 = some (.loadMtimeLo 0x01 2) := by decide +kernel

/-- W2 in the model's byte form: kind 1, length 2, offset 2, data AA BB. -/
theorem test_word_store : decodeTableWord 96 0xBBAA00000000000000020201 = some (.storeMtimeLo 0x02 2 [0xAA, 0xBB]) := by decide +kernel

/-- A word that is no request: kind 9. -/
theorem test_word_reject : decodeTableWord 8 9 = none := by decide +kernel

/-- A5: `ST32 0x08, 5` is E8's request. -/
theorem test_st32 : Request.st32 0x08 5 = .store 0x08 4 [0x05, 0, 0, 0] := by decide

/-! ### 3. Meanings: one step each -/

/-- L2. -/
theorem test_L2 : answers (.load 0x01 2) (.data [0x56, 0x34]) := rfl

/-- L4. -/
theorem test_L4 : answers (.load 0x03 1) (.data [0x12]) := rfl

/-- L8. -/
theorem test_L8 : answers (.load 0x04 4) (.data [0xF0, 0xDE, 0xBC, 0x9A]) := rfl

/-- L9. -/
theorem test_L9 : answers (.load 0x07 1) (.data [0x9A]) := rfl

/-- L10. -/
theorem test_L10 : answers (.load 0x08 4) (.data [0x05, 0, 0, 0]) := rfl

/-- L12. -/
theorem test_L12 : answers (.load 0x0E 2) (.data [0xBB, 0xAA]) := rfl

/-- L13. -/
theorem test_L13 : answers (.load 0x10 4) (.data [0x02, 0, 0, 0]) := rfl

/-- L14. -/
theorem test_L14 : answers (.load 0x14 4) (.data [0, 0, 0, 0x80]) := rfl

/-- L6. -/
theorem test_L6 : answers (.load 0x00 8) .fail := rfl

/-- L22. -/
theorem test_L22 : answers (.load 0x08 0) .fail := rfl

/-- L16: the bytes of the sample `W = 0x0000000123456789`. -/
theorem test_L16_bytes : readBytes 0x0000000123456789#64 0 8 = [0x89, 0x67, 0x45, 0x23, 0x01, 0, 0, 0] := by decide

/-- L17: bytes 4 to 7 of one sample, which is recorded. -/
theorem test_L17 : issue s0 (.load 0x1C 4) = .next { s0 with wcLast := some (Config.wallClock 0), clockDraws := 1, response := some (.data (readBytes (Config.wallClock 0) 4 4)) } := rfl

/-- W1. -/
theorem test_W1 : issue s0 (.store 0x00 4 [0x01, 0x02, 0x03, 0x04]) = .next { s0 with mtimeLo := 0x04030201, response := some .ok } := rfl

/-- W2. -/
theorem test_W2 : issue s0 (.store 0x02 2 [0xAA, 0xBB]) = .next { s0 with mtimeLo := 0xBBAA5678, response := some .ok } := rfl

/-- W4. -/
theorem test_W4 : issue s0 (.store 0x07 1 [0x00]) = .next { s0 with mtimeHi := 0x00BCDEF0, response := some .ok } := rfl

/-- W5. -/
theorem test_W5 : issue s0 (.store 0x08 4 [0xFF, 0xFF, 0xFF, 0xFF]) = .next { s0 with mtimecmpLo := 0xFFFFFFFF, response := some .ok } := rfl

/-- W6. -/
theorem test_W6 : issue s0 (.store 0x0C 2 [0, 0]) = .next { s0 with mtimecmpHi := 0xAABB0000, response := some .ok } := rfl

/-- W7. -/
theorem test_W7 : issue s0 (.store 0x10 4 [0, 0, 0, 0]) = .next { s0 with divLo := 0, response := some .ok } := rfl

/-- W8. -/
theorem test_W8 : issue s0 (.store 0x14 4 [0, 0, 0, 0]) = .next { s0 with divHi := 0, response := some .ok } := rfl

/-- W10. -/
theorem test_W10 : answers (.store 0x18 8 [0, 0, 0, 0, 0, 0, 0, 0]) .fail := rfl

/-- W11. -/
theorem test_W11 : answers (.store 0x1C 4 [0, 0, 0, 0]) .fail := rfl

/-- W12. -/
theorem test_W12 : answers (.store 0x00 8 [1, 2, 3, 4, 5, 6, 7, 8]) .ok := rfl

/-- W14. -/
theorem test_W14 : answers (.store 0x16 4 [0x11, 0x22, 0x33, 0x44]) .ok := rfl

/-- W18. -/
theorem test_W18 : answers (.store 0x10 0 []) .fail := rfl

/-- W19: before ATTACH. -/
theorem test_W19 : issue unbound (.store 0x08 4 [0x05, 0, 0, 0]) = .next { unbound with response := some .fail } := rfl

/-- T1. -/
theorem test_T1 : ticksTo (tickState 0x0 0x7 0x100 0x0 true true false) 0x7 0x100 false false := rfl

/-- T2. -/
theorem test_T2 : ticksTo (tickState 0x0 0x3 0x5 0x10 true true true) 0x3 0x5 true false := rfl

/-- T5, its 10 read in decimal (log 18). -/
theorem test_T5 : ticksTo (tickState 0x2 0x1 0x9 0xA true true false) 0x0 0xA true true := rfl

/-- T7, its 10 read in decimal (log 18). -/
theorem test_T7 : ticksTo (tickState 0x2 0x1 0x9 0xA false true true) 0x0 0xA true false := rfl

/-- T8. -/
theorem test_T8 : ticksTo (tickState 0x5 0x0 0x3 0x4 false false true) 0x1 0x3 false false := rfl

/-- T9. -/
theorem test_T9 : ticksTo (tickState 0x1 0x0 0x00000000FFFFFFFF 0xFFFFFFFFFFFFFFFF true true false) 0x0 0x0000000100000000 false false := rfl

/-- T11. -/
theorem test_T11 : ticksTo (tickState 0x3 0xFFFFFFFFFFFFFFFF 0x50 0x100 true true false) 0x0 0x50 false false := rfl

/-- T12. -/
theorem test_T12 : ticksTo (tickState 0x5 0x5 0x7 0x0 true true false) 0x6 0x7 true true := rfl

/-- T15. -/
theorem test_T15 : ticksTo (tickState 0x1 0x0 0x7FFFFFFFFFFFFFFE 0x8000000000000000 true true true) 0x0 0x7FFFFFFFFFFFFFFF false false := rfl

/-- T20. -/
theorem test_T20 : issue unbound .tick = .fault .tickUnattached := rfl

/-- A1. -/
theorem test_A1 : issue State.reset (.attach true) = .next { State.reset with attached := true, response := some .ok } := rfl

/-- A3: the fatal stop, and nothing admitted after it. -/
theorem test_A3 : issue State.reset (.attach false) = .next { State.reset with fatal := true, response := some .fatalNoCore } ∧ issue stopped .tick = .fault .noCore := ⟨rfl, rfl⟩

/-- A4. -/
theorem test_A4 : issue s0 (.attach true) = .fault .attachTwice := rfl

/-- P4 line 2: the core enables its timer interrupt. -/
theorem test_P4_core : step { s0 with inputs := [.core true true true] } = .next { s0 with coreGie := true, coreTie := true, coreTip := true } := rfl

/-- R65. -/
theorem test_fetch : issue s0 (.fetch 0x00 4) = .refused .fetchFromWindow := rfl

/-- A row applied to operands of another row (log 9). -/
theorem test_rowNotSelected : exec (.loadMtimeLo 0x04 4) s0 = .refused .rowNotSelected := rfl

/-! ### 4. Witnesses: the hypotheses of each statement can be met, clause by clause -/

/-- An enabled, ready timer: divisor 2, accumulator 1, mtime and mtimecmp as given, both enables set. -/
def enabled (m c : DWord) : State := tickState 2 1 m c true true false

theorem witness_ResetGivesTheConstructionValues : State.reset.wcLast = none := rfl

theorem witness_UnattachedDeviceFailsEveryRequest :
    unbound.fatal = false ∧ unbound.attached = false ∧
      ({ unbound with inputs := [.request (.load 0x00 4)] } : State).inputs = .request (.load 0x00 4) :: [] ∧
      ({ unbound with inputs := [.request (.store 0x08 4 [5, 0, 0, 0])] } : State).inputs = .request (.store 0x08 4 [5, 0, 0, 0]) :: [] ∧
      [5, 0, 0, (0 : Byte)].length = 4 := by decide

theorem witness_StepRunsTheDecodedInstruction :
    s0.fatal = false ∧ ({ s0 with inputs := [.request (.load 0x1F 1)] } : State).inputs = .request (.load 0x1F 1) :: [] ∧
      decode s0.attached (.load 0x1F 1) = .ok (.loadWallclock 0x1F 1) := ⟨rfl, rfl, rfl⟩

theorem witness_CoreChangesItsFlagsBetweenOperations :
    s0.fatal = false ∧ ({ s0 with inputs := [.core true true true] } : State).inputs = .core true true true :: [] := by decide

theorem witness_NothingAdvancesWithoutACall : s0.fatal = false ∧ s0.inputs = [] := by decide

theorem witness_FetchFromTheWindowIsRefused :
    s0.fatal = false ∧ ({ s0 with inputs := [.request (.fetch 0x00 4)] } : State).inputs = .request (.fetch 0x00 4) :: [] := by decide

theorem witness_AttachWithNoCoreIsFatal :
    unbound.fatal = false ∧ unbound.attached = false ∧ stopped.fatal = true := by decide

theorem witness_AttachBindsTheDeviceAndAloneWritesAttached :
    State.reset.fatal = false ∧ State.reset.attached = false ∧
      exec (.attach true) unbound = .next { s0 with response := some .ok } ∧ ({ s0 with response := some .ok } : State).attached ≠ unbound.attached :=
  ⟨rfl, rfl, rfl, by decide⟩

theorem witness_SecondAttachFaults : s0.fatal = false ∧ s0.attached = true := by decide

theorem witness_TickWithNoCoreFaults : unbound.fatal = false ∧ unbound.attached = false ∧ stopped.fatal = true := by decide

theorem witness_StepFaultsExactlyInTheThreeModelFaults :
    step stopped = .fault .noCore ∧ step { unbound with inputs := [.request .tick] } = .fault .tickUnattached ∧
      step { s0 with inputs := [.request (.attach true)] } = .fault .attachTwice := ⟨rfl, rfl, rfl⟩

theorem witness_StepRefusesOnlyWhatIsNoOperationOfTheBlock :
    step { s0 with inputs := [.request (.fetch 0 4)] } = .refused .fetchFromWindow ∧
      step { s0 with inputs := [.request (.foreign 9)] } = .refused (.unknownRequestKind 9) ∧
      step { s0 with inputs := [.request (.store 0 2 [1])] } = .refused .malformedStore := ⟨rfl, rfl, rfl⟩

/-- The first byte, the last byte and the whole of each half, on a ready device. -/
theorem witness_LoadOfAHalfAnswersItsBytes :
    s0.ready ∧
      (contained 0x00 4 0x00 4 = true ∧ contained 0x00 1 0x00 4 = true ∧ contained 0x03 1 0x00 4 = true) ∧
      (contained 0x04 4 0x04 4 = true ∧ contained 0x04 1 0x04 4 = true ∧ contained 0x07 1 0x04 4 = true) ∧
      (contained 0x08 4 0x08 4 = true ∧ contained 0x08 1 0x08 4 = true ∧ contained 0x0B 1 0x08 4 = true) ∧
      (contained 0x0C 4 0x0C 4 = true ∧ contained 0x0C 1 0x0C 4 = true ∧ contained 0x0F 1 0x0C 4 = true) ∧
      (contained 0x10 4 0x10 4 = true ∧ contained 0x10 1 0x10 4 = true ∧ contained 0x13 1 0x10 4 = true) ∧
      (contained 0x14 4 0x14 4 = true ∧ contained 0x14 1 0x14 4 = true ∧ contained 0x17 1 0x14 4 = true) := by
  simp only [State.ready]; decide

theorem witness_LoadOfTheWallclockTakesOneSample :
    s0.ready ∧ contained 0x18 8 0x18 8 = true ∧ contained 0x1F 1 0x18 8 = true ∧
      (∀ p, s0.wcLast = some p → p ≤ Config.wallClock s0.clockDraws) ∧
      ({ s0 with wcLast := some 7 } : State).wcLast = some 7 := by
  refine ⟨⟨rfl, rfl⟩, by decide, by decide, ?_, rfl⟩
  intro p h
  cases h

/-- A length of 0, an unattached device, and requests in no span: across 0x04, and at the start of [0x20, ..). -/
theorem witness_LoadFailureChangesNothing :
    s0.fatal = false ∧ unbound.fatal = false ∧ unbound.attached = false ∧ inNoSpan 0x03 2 ∧ inNoSpan 0x20 1 := by
  simp only [inNoSpan]; decide

theorem witness_StoreToAHalfWritesItsEnabledLanes :
    s0.ready ∧ [1, 2, 3, (4 : Byte)].length = 4 ∧ [(1 : Byte)].length = 1 ∧
      (contained 0x00 4 0x00 4 = true ∧ contained 0x03 1 0x00 4 = true) ∧
      (contained 0x04 4 0x04 4 = true ∧ contained 0x07 1 0x04 4 = true) ∧
      (contained 0x08 4 0x08 4 = true ∧ contained 0x0B 1 0x08 4 = true) ∧
      (contained 0x0C 4 0x0C 4 = true ∧ contained 0x0F 1 0x0C 4 = true) ∧
      (contained 0x10 4 0x10 4 = true ∧ contained 0x13 1 0x10 4 = true) ∧
      (contained 0x14 4 0x14 4 = true ∧ contained 0x17 1 0x14 4 = true) := by
  simp only [State.ready]; decide

theorem witness_StoreToTheWallclockFails :
    s0.fatal = false ∧ contained 0x18 8 0x18 8 = true ∧ [0, 0, 0, 0, 0, 0, 0, (0 : Byte)].length = 8 ∧
      contained 0x1F 1 0x18 8 = true ∧ [(1 : Byte)].length = 1 := by decide

/-- Across 0x04, and the whole window in one request. -/
theorem witness_StoreInNoFieldIsANoOpSuccess :
    s0.ready ∧ (1 ≤ 2 ∧ 0x03 + 2 ≤ windowSize ∧ inNoSpan 0x03 2 ∧ [(1 : Byte), 2].length = 2) ∧
      (1 ≤ windowSize ∧ 0 + windowSize ≤ windowSize ∧ inNoSpan 0 windowSize ∧ (List.replicate windowSize (0 : Byte)).length = windowSize) := by
  have hs := le_windowSize
  refine ⟨⟨rfl, rfl⟩, ⟨by decide, by omega, ?_, rfl⟩, by omega, by omega, ?_, by simp⟩ <;>
    simp only [inNoSpan, contained_false_iff] <;> omega

/-- A length of 0, an unattached device, and one byte past the window. -/
theorem witness_StoreFailureChangesNothing :
    s0.fatal = false ∧ ([] : List Byte).length = 0 ∧ unbound.fatal = false ∧ unbound.attached = false ∧
      windowSize < windowSize + 1 ∧ [(1 : Byte)].length = 1 :=
  ⟨rfl, rfl, rfl, rfl, by omega, rfl⟩

theorem witness_StoreChangesOnlyTheBytesItStores :
    ({ s0 with inputs := [.request (.store 0x02 2 [0xAA, 0xBB])] } : State).ready ∧ inField (.half .mtimeLo) 0x02 2 = true ∧
      inField (.half .divHi) 0x17 1 = true ∧ [(0xAA : Byte), 0xBB].length = 2 := by
  simp only [State.ready]; decide

theorem witness_LoadAfterStoreReturnsTheStoredBytes :
    ({ s0 with inputs := [.request (.store 0x02 2 [0xAA, 0xBB]), .request (.load 0x02 2)] } : State).ready ∧
      inField (.half .mtimeLo) 0x02 2 = true ∧ [(0xAA : Byte), 0xBB].length = 2 := by
  simp only [State.ready]; decide

theorem witness_StoresAreIdempotentAndRoundTrip :
    ({ s0 with inputs := [.request (.store 0x02 2 [1, 2]), .request (.store 0x02 2 [1, 2])] } : State).fatal = false ∧
      ({ s0 with inputs := [.request (.load 0x0F 1)] } : State).ready ∧ inField (.half .mtimecmpHi) 0x0F 1 = true ∧
      ({ s0 with inputs := [.request (.store 0x1F 1 [1])] } : State).fatal = false ∧ inField .wallclock 0x1F 1 = true ∧
      [(1 : Byte)].length = 1 ∧ [(1 : Byte), 2].length = 2 := by
  simp only [State.ready]; decide

theorem witness_FailLeavesTheStateAsBefore :
    exec (.loadFail 0x00 8) s0 = .next { s0 with response := some .fail } ∧
      ({ s0 with response := some .fail } : State).response = some .fail := ⟨rfl, rfl⟩

/-- A rollover out of `mtime_lo = 0xFFFFFFFF` changes both halves of mtime and the accumulator; a STORE changes each half. -/
theorem witness_RegistersHaveOnlyTheirNamedWriters :
    (∃ t, exec .tick (enabled 0xFFFFFFFF 0) = .next t ∧ t.mtimeLo ≠ (enabled 0xFFFFFFFF 0).mtimeLo ∧
        t.mtimeHi ≠ (enabled 0xFFFFFFFF 0).mtimeHi ∧ t.acc ≠ (enabled 0xFFFFFFFF 0).acc) ∧
      (∃ t, exec (.storeMtimeLo 0x00 1 [1]) s0 = .next t ∧ t.mtimeLo ≠ s0.mtimeLo) ∧
      (∃ t, exec (.storeMtimeHi 0x07 1 [1]) s0 = .next t ∧ t.mtimeHi ≠ s0.mtimeHi) ∧
      (∃ t, exec (.storeMtimecmpLo 0x08 1 [1]) s0 = .next t ∧ t.mtimecmpLo ≠ s0.mtimecmpLo) ∧
      (∃ t, exec (.storeMtimecmpHi 0x0F 1 [1]) s0 = .next t ∧ t.mtimecmpHi ≠ s0.mtimecmpHi) ∧
      (∃ t, exec (.storeDivLo 0x10 1 [1]) s0 = .next t ∧ t.divLo ≠ s0.divLo) ∧
      (∃ t, exec (.storeDivHi 0x17 1 [1]) s0 = .next t ∧ t.divHi ≠ s0.divHi) :=
  ⟨⟨_, rfl, by decide, by decide, by decide⟩, ⟨_, rfl, by decide⟩, ⟨_, rfl, by decide⟩, ⟨_, rfl, by decide⟩,
    ⟨_, rfl, by decide⟩, ⟨_, rfl, by decide⟩, ⟨_, rfl, by decide⟩⟩

theorem witness_OnlyTickDrivesThePendingFlag :
    ∃ t, exec .tick (enabled 9 10) = .next t ∧ t.coreTip ≠ (enabled 9 10).coreTip := ⟨_, rfl, by decide⟩

theorem witness_OnlyTheFailedAttachSetsTheFatalMark :
    (∃ t, exec (.attach false) unbound = .next t ∧ t.fatal = true) ∧
      ∃ t, step { unbound with inputs := [.request (.attach false)] } = .next t ∧ t.fatal = true :=
  ⟨⟨_, rfl, rfl⟩, ⟨_, rfl, rfl⟩⟩

/-- A TICK that writes core.TIP, and one that holds it (T7). -/
theorem witness_PendingFlagIsNeverRead :
    (∃ t, exec .tick (enabled 9 10) = .next t) ∧ ∃ t, exec .tick (tickState 2 1 9 10 false true true) = .next t :=
  ⟨⟨_, rfl⟩, ⟨_, rfl⟩⟩

theorem witness_AccumulatorIsInvisibleToBusRequests :
    Instr.loadDivLo 0x10 4 ≠ .tick ∧ ∃ t, exec (.loadDivLo 0x10 4) s0 = .next t := ⟨by decide, ⟨_, rfl⟩⟩

theorem witness_WallclockSamplesNeverDecrease :
    ∃ t, step { s0 with wcLast := some 7, inputs := [.request (.load 0x18 8)] } = .next t ∧
      ({ s0 with wcLast := some 7, inputs := [.request (.load 0x18 8)] } : State).wcLast = some 7 := ⟨_, rfl, rfl⟩

/-- The last byte of a field, and a rejected request on an unattached device. -/
theorem witness_DecodeOfEncodeIsTheInstruction :
    (Instr.storeDivHi 0x17 1 [0x80]).wellFormed = true ∧ (Instr.storeDivHi 0x17 1 [0x80]).selected true = true ∧
      (Instr.loadFail 0x00 4).wellFormed = true ∧ (Instr.loadFail 0x00 4).selected false = true := by decide

theorem witness_DecodedInstructionIsTheSelectedRow :
    decode true (.load 0x1F 1) = .ok (.loadWallclock 0x1F 1) := rfl

theorem witness_SpansAreDisjointAndCoverTheFields :
    inField .wallclock 0x18 8 = true ∧ inField .wallclock 0x1F 1 = true ∧ 0x20 ≤ 0x20 := by decide

theorem witness_RequestsPastTheWindowFail :
    s0.ready ∧ windowSize < windowSize + 1 ∧ [(1 : Byte)].length = 1 ∧
      ({ s0 with inputs := [.request (.load windowSize 1)] } : State).inputs = .request (.load windowSize 1) :: [] :=
  ⟨⟨rfl, rfl⟩, by omega, rfl, rfl⟩

/-- Across 0x04, and the whole window in one request, which ends where the window does. -/
theorem witness_UnmappedLoadFailsWhereStoreSucceeds :
    s0.ready ∧
      (1 ≤ 4 ∧ 0x02 + 4 ≤ windowSize ∧ inNoSpan 0x02 4 ∧ [(1 : Byte), 2, 3, 4].length = 4 ∧
        ({ s0 with inputs := [.request (.load 0x02 4)] } : State).inputs = .request (.load 0x02 4) :: []) ∧
      (1 ≤ windowSize ∧ 0 + windowSize ≤ windowSize ∧ inNoSpan 0 windowSize ∧
        (List.replicate windowSize (0 : Byte)).length = windowSize ∧
        ({ s0 with inputs := [.request (.load 0 windowSize)] } : State).inputs = .request (.load 0 windowSize) :: []) := by
  have hs := le_windowSize
  refine ⟨⟨rfl, rfl⟩, ⟨by decide, by omega, ?_, rfl, rfl⟩, by omega, by omega, ?_, List.length_replicate, rfl⟩ <;>
    simp only [inNoSpan, contained_false_iff] <;> omega

theorem witness_NoRequestMovesAWhole64BitRegister :
    inField (.half .divHi) 0x14 4 = true ∧ inField (.half .divHi) 0x17 1 = true ∧ inField .wallclock 0x18 8 = true ∧ s0.ready ∧
      ({ s0 with inputs := [.request (.load 0x10 8)] } : State).inputs = .request (.load 0x10 8) :: [] ∧
      [1, 2, 3, 4, 5, 6, 7, (8 : Byte)].length = 8 := by
  simp only [State.ready]; decide

theorem witness_RegisterLoadsHaveNoSideEffect :
    ({ s0 with inputs := [.request (.load 0x0F 1), .request (.load 0x0F 1)] } : State).ready ∧
      inField (.half .mtimecmpHi) 0x0F 1 = true := by
  simp only [State.ready]; decide

/-- A disabled timer (T1) and an enabled one (T5). -/
theorem witness_TickIsTheStatedAlgorithm :
    (tickState 0 7 0x100 0 true true false).ready ∧ (tickState 0 7 0x100 0 true true false).divisor = 0 ∧
      (enabled 9 10).ready ∧ (enabled 9 10).divisor ≠ 0 := by
  simp only [State.ready]; decide

theorem witness_DisabledTimerIsSteady :
    (tickState 0 7 0x100 0 true true false).ready ∧ (tickState 0 7 0x100 0 true true false).divisor = 0 ∧
      ({ tickState 0 7 0x100 0 true true false with inputs := ticks 3 } : State).inputs = ticks 3 ++ [] ∧
      ({ tickState 0 7 0x100 0 true true false with inputs := [] } : State).inputs = ticks 0 ++ [] := by
  simp only [State.ready]; decide

/-- A rollover, none, the accumulator's wrap (T11), and a rollover with and without a carry (T9). -/
theorem witness_RolloverIsByEqualityWithCarryAndWrap :
    ((enabled 9 10).ready ∧ (enabled 9 10).divisor ≠ 0 ∧ (enabled 9 10).acc + 1 = (enabled 9 10).divisor ∧
        (enabled 9 10).mtimeLo ≠ 0xFFFFFFFF) ∧
      ((enabled 0xFFFFFFFF 10).acc + 1 = (enabled 0xFFFFFFFF 10).divisor ∧ (enabled 0xFFFFFFFF 10).mtimeLo = 0xFFFFFFFF) ∧
      ((tickState 3 0xFFFFFFFFFFFFFFFF 0x50 0x100 true true false).ready ∧ (tickState 3 0xFFFFFFFFFFFFFFFF 0x50 0x100 true true false).divisor ≠ 0 ∧
        (tickState 3 0xFFFFFFFFFFFFFFFF 0x50 0x100 true true false).acc = 0xFFFFFFFFFFFFFFFF ∧
        (tickState 3 0xFFFFFFFFFFFFFFFF 0x50 0x100 true true false).acc + 1 ≠ (tickState 3 0xFFFFFFFFFFFFFFFF 0x50 0x100 true true false).divisor) := by
  simp only [State.ready]; decide

/-- Assert at equality (T5), hold with an enable clear (T7), clear one below (T4 with MTIMECMP one above). -/
theorem witness_PendingFlagIsSetHeldOrCleared :
    (∃ t, exec .tick (enabled 9 10) = .next t ∧ (enabled 9 10).mtimecmp.toNat ≤ t.mtime.toNat ∧
        (enabled 9 10).coreGie = true ∧ (enabled 9 10).coreTie = true) ∧
      (∃ t, exec .tick (tickState 2 1 9 10 false true true) = .next t ∧
        (tickState 2 1 9 10 false true true).mtimecmp.toNat ≤ t.mtime.toNat ∧ (tickState 2 1 9 10 false true true).coreGie = false) ∧
      (∃ t, exec .tick (enabled 9 11) = .next t ∧ t.mtime.toNat < (enabled 9 11).mtimecmp.toNat) ∧
      (enabled 9 11).ready ∧ (enabled 9 11).divisor ≠ 0 := by
  simp only [State.ready]
  exact ⟨⟨_, rfl, by decide, by decide, by decide⟩, ⟨_, rfl, by decide, by decide⟩, ⟨_, rfl, by decide⟩, by decide, by decide⟩

/-- The last TICK before the rollover, and the rollover: `acc = 0`, divisor 3 (T18). -/
theorem witness_NextRolloverComesAfterTheStatedTicks :
    (tickState 3 0 0 10 true true false).ready ∧ (tickState 3 0 0 10 true true false).divisor ≠ 0 ∧
      2 < (tickState 3 0 0 10 true true false).ticksToRollover ∧ 3 = (tickState 3 0 0 10 true true false).ticksToRollover ∧
      ({ tickState 3 0 0 10 true true false with inputs := ticks 2 } : State).inputs = ticks 2 ++ [] ∧
      ({ tickState 3 0 0 10 true true false with inputs := ticks 3 } : State).inputs = ticks 3 ++ [] := by
  simp only [State.ready]; decide

/-- T18 with divisor 3: TICK 3 is the first rollover, TICK 9 the third, TICK 8 none. -/
theorem witness_CounterAdvancesOncePerDivisorTicks :
    (tickState 3 0 0 10 true true false).ready ∧
      (tickState 3 0 0 10 true true false).acc.toNat < (tickState 3 0 0 10 true true false).divisor.toNat ∧
      ({ tickState 3 0 0 10 true true false with inputs := ticks 3 } : State).inputs = ticks 2 ++ .request .tick :: [] ∧
      ({ tickState 3 0 0 10 true true false with inputs := ticks 9 } : State).inputs = ticks 8 ++ .request .tick :: [] ∧
      ({ tickState 3 0 0 10 true true false with inputs := ticks 8 } : State).inputs = ticks 7 ++ .request .tick :: [] ∧
      2 + 1 = 3 - 0 + 0 * 3 ∧ 8 + 1 = 3 - 0 + 2 * 3 ∧ ¬∃ k, 7 + 1 = 3 - 0 + k * 3 := by
  refine ⟨⟨rfl, rfl⟩, by decide, rfl, rfl, rfl, rfl, rfl, ?_⟩
  rintro ⟨k, hk⟩
  omega

theorem witness_ThreeStoreCompareUpdateIsSafe :
    ({ s0 with inputs := [.request (.st32 0x08 0xFFFFFFFF), .request (.st32 0x0C (hiHalf 0x0000000200000000)), .request (.st32 0x08 (loHalf 0x0000000200000000))] } : State).ready := by
  simp only [State.ready]; decide

/-- Two TICKs, then one, between the LOADs: every input is consumed and the two high answers agree. -/
theorem witness_HighLowHighReadOfTheCounterIsConsistent :
    (enabled 9 10).ready ∧ 2 + 1 ≤ 2 ^ 64 - 2 ^ 32 ∧
      (∃ c, run 6 { enabled 9 10 with inputs := .request (.load 0x04 4) :: (ticks 2 ++ .request (.load 0x00 4) :: (ticks 1 ++ .request (.load 0x04 4) :: [])) } = .next c ∧
        c.response = some (.data [0, 0, 0, 0]) ∧ c.inputs = []) ∧
      ∃ a, issue (enabled 9 10) (.load 0x04 4) = .next a ∧ a.response = some (.data [0, 0, 0, 0]) := by
  simp only [State.ready]
  exact ⟨by decide, by decide, ⟨_, rfl, by decide, by decide⟩, ⟨_, rfl, by decide⟩⟩

theorem witness_InitialisationOrderSetsTheTimer :
    ({ s0 with inputs := [.request (.st32 0x10 0), .request (.st32 0x14 0), .request (.st32 0x00 (loHalf 0)), .request (.st32 0x04 (hiHalf 0)), .request (.st32 0x08 (loHalf 3)), .request (.st32 0x0C (hiHalf 3)), .request (.st32 0x10 (loHalf 2)), .request (.st32 0x14 (hiHalf 2))] } : State).ready := by
  simp only [State.ready]; decide

/-- A ready state that has taken no sample meets the invariant, from whatever draw count, and takes one. -/
theorem witness_EveryStepKeepsTheInvariant :
    ({ s0 with clockDraws := 5, inputs := [.request (.load 0x18 8)] } : State).Inv 5 ∧
      ∃ t, step { s0 with clockDraws := 5, inputs := [.request (.load 0x18 8)] } = .next t := by
  refine ⟨⟨?_, ?_, ?_, ?_⟩, _, rfl⟩
  · intro h; cases h
  · intro h; cases h
  · intro _; rfl
  · intro p h; cases h

/-- From construction: ATTACH, a LOAD, a TICK. -/
theorem witness_OrderlyHostIsNeverStopped :
    ({ State.reset with inputs := [.request (.attach true), .request (.load 0x00 4), .request .tick] } : State).fatal = false ∧
      orderly false [.request (.attach true), .request (.load 0x00 4), .request .tick] = true := by decide

/-- The largest offset and length the byte form holds. -/
theorem witness_ByteFormRoundTrips :
    2 ^ 64 - 1 < 2 ^ 64 ∧ 255 < 256 ∧ (List.replicate 255 (0 : Byte)).length = 255 :=
  ⟨by decide, by decide, List.length_replicate⟩

theorem witness_PlacedWordRunsAsTheVeryNextStep :
    State.reset.fatal = false ∧ decodeTableWord 80 0x10200 = some (.loadMtimeLo 0x01 2) :=
  ⟨rfl, by decide +kernel⟩

theorem witness_RejectionsComeBeforeTheRow :
    s0.fatal = false ∧ encode (.storeMtimeLo 0x00 0 []) = .store 0x00 0 [] ∧
      unbound.fatal = false ∧ encode (.loadWallclock 0x18 8) = .load 0x18 8 ∧ unbound.attached = false := by decide

theorem witness_RowIsRefusedExactlyOnOperandsOfAnotherRow :
    exec (.loadMtimeLo 0x04 4) s0 = .refused .rowNotSelected ∧ s0.fatal = false ∧ s0.attached = true ∧
      ((Instr.loadMtimeLo 0x04 4).wellFormed && (Instr.loadMtimeLo 0x04 4).selected true) = false ∧ 4 ≠ 0 ∧
      encode (.loadMtimeLo 0x04 4) = .load 0x04 4 := ⟨rfl, rfl, rfl, by decide, by decide, rfl⟩

end Sys2Proof.Tests
end

section
/-! PROOFS. The state family (10_state.md): construction, the unattached device, the step, who writes what, what no
operation reads, and the invariant of the machine. -/

namespace Sys2Proof.Machine

/-! ### What the operations leave of the register file -/

@[simp] theorem State.respond_half (s : State) (r : Response) (k : Half) : (s.respond r).half k = s.half k := by
  cases k <;> rfl

@[simp] theorem State.drawClock_half (s : State) (k : Half) : s.drawClock.half k = s.half k := by
  cases k <;> rfl

@[simp] theorem State.raiseFatal_half (s : State) (k : Half) : s.raiseFatal.half k = s.half k := by
  cases k <;> rfl

@[simp] theorem State.control_half (s : State) (k : Half) : s.control.half k = s.half k := by
  cases k <;> rfl

/-- The prescaler writes no half but the two of mtime, and those only at rollover (42_tick_engine.md R144). -/
theorem State.advance_half (s : State) (k : Half) :
    s.advance.half k = s.half k ∨ ((k = .mtimeLo ∨ k = .mtimeHi) ∧ s.acc + 1 = s.divisor) := by
  by_cases hr : s.acc + 1 = s.divisor
  · rw [and_iff_left hr, State.advance_rollover hr]
    cases k <;> simp [State.half]
  · rw [State.advance_count hr]
    left
    cases k <;> rfl

/-! ### The step and the instructions run -/

/-- The step on a request that decodes (30_encoding.md R72). -/
theorem step_request {s : State} {r : Request} {rest : List Input} {i : Instr} (hf : s.fatal = false)
    (h : s.inputs = .request r :: rest) (hd : decode s.attached r = .ok i) :
    step s = exec i { s with inputs := rest } := by
  simp [step, hf, h, hd]

/-- The step with nothing pending. -/
theorem step_idle {s : State} (hf : s.fatal = false) (h : s.inputs = []) : step s = .next s := by
  simp [step, hf, h]

theorem exec_tick {s : State} (hs : s.ready) : exec .tick s = .next s.tick := by
  simp [exec, execTick, State.unlessFatal, hs.1, hs.2]

theorem exec_attach {s : State} (hf : s.fatal = false) (ha : s.attached = false) (p : Bool) :
    exec (.attach p) s = .next (if p then { s with attached := true }.respond .ok else s.raiseFatal) := by
  simp [exec, execAttach, State.unlessFatal, hf, ha]

/-- An operation that is admitted is admitted by a device not fatally stopped (60_exceptions.md R172). -/
theorem State.unlessFatal_next {s t : State} {k : Host.Outcome State Fault Refusal} (h : s.unlessFatal k = .next t) :
    s.fatal = false ∧ k = .next t := by
  unfold State.unlessFatal at h
  split at h
  · cases h
  · rename_i hf
    exact ⟨by simpa using hf, h⟩

/-- TICK answers a next state on a ready device only. -/
theorem exec_tick_next {s t : State} (h : exec .tick s = .next t) : s.ready ∧ t = s.tick := by
  obtain ⟨hf, h⟩ := State.unlessFatal_next h
  split at h
  · cases h
  · rename_i ha
    cases h
    exact ⟨⟨by simpa using ha, hf⟩, rfl⟩

/-- ATTACH answers a next state on an unattached device only. -/
theorem exec_attach_next {s t : State} {p : Bool} (h : exec (.attach p) s = .next t) :
    s.fatal = false ∧ s.attached = false ∧
      t = if p then { s with attached := true }.respond .ok else s.raiseFatal := by
  obtain ⟨hf, h⟩ := State.unlessFatal_next h
  split at h
  · cases h
  · rename_i ha
    cases h
    exact ⟨hf, by simpa using ha, rfl⟩

/-- The flag that a placed word's device is given is one its request decodes under as on an attached device. -/
theorem decode_attachedFor (r : Request) : decode (attachedFor r) r = decode true r := by
  cases r <;> rfl

theorem decode_wordRequest {nbits w : Nat} {i : Instr} (h : decodeTableWord nbits w = some i) :
    decode true (wordRequest nbits w) = .ok i := by
  unfold decodeTableWord at h
  split at h
  · cases h; assumption
  · cases h

/-! ### Who writes what -/

section
variable {s t : State} {i : Instr}

/-- A half has two kinds of writers: a STORE contained in it and, for mtime, a TICK that rolls over. -/
theorem Effect.half_writer (h : Effect s i t) {k : Half} (hk : t.half k ≠ s.half k) :
    (∃ off len wdata, i = storeRow off len wdata (.field (.half k)) ∧ inField (.half k) off len = true) ∨
      ((k = .mtimeLo ∨ k = .mtimeHi) ∧ i = .tick ∧ s.divisor ≠ 0 ∧ s.acc + 1 = s.divisor) := by
  cases h with
  | stored h off len wdata _ hi _ =>
    by_cases e : k = h
    · subst e
      exact .inl ⟨off, len, wdata, rfl, hi⟩
    · simp [State.storeHalf, e] at hk
  | ticked _ hd =>
    rcases s.advance_half k with e | ⟨hm, hr⟩
    · simp [e] at hk
    · exact .inr ⟨hm, rfl, hd, hr⟩
  | bound => cases k <;> exact absurd rfl hk
  | _ => simp [State.answerHalf, State.answerWallclock] at hk

theorem Effect.acc_writer (h : Effect s i t) (ht : t.acc ≠ s.acc) : i = .tick ∧ s.divisor ≠ 0 := by
  cases h with
  | ticked _ hd => exact ⟨rfl, hd⟩
  | _ => simp [State.answerHalf, State.answerWallclock, State.storeHalf] at ht

theorem Effect.coreTip_writer (h : Effect s i t) (ht : t.coreTip ≠ s.coreTip) : i = .tick ∧ s.divisor ≠ 0 := by
  cases h with
  | ticked _ hd => exact ⟨rfl, hd⟩
  | _ => simp [State.answerHalf, State.answerWallclock, State.storeHalf] at ht

/-- The enables are the core's alone (60_exceptions.md R176). -/
theorem Effect.enables (h : Effect s i t) : t.coreGie = s.coreGie ∧ t.coreTie = s.coreTie := by
  cases h <;> simp [State.answerHalf, State.answerWallclock, State.storeHalf]

/-- The sample record and the draw counter move together: both are kept, or one sample is drawn. -/
theorem Effect.sample (h : Effect s i t) :
    (t.wcLast = s.wcLast ∧ t.clockDraws = s.clockDraws) ∨
      (t.wcLast = some s.clockSample ∧ t.clockDraws = s.clockDraws + 1) := by
  cases h with
  | sampled => exact .inr ⟨rfl, rfl⟩
  | _ => simp [State.answerHalf, State.storeHalf]

/-- A device is found unattached after an instruction only where one failed on it, or ATTACH found no core. -/
theorem Effect.unattached (h : Effect s i t) (ht : t.attached = false) :
    s.attached = false ∧ (t = s.respond .fail ∨ t = s.raiseFatal) := by
  cases h with
  | failed => exact ⟨ht, .inl rfl⟩
  | stopped ha => exact ⟨ha, .inr rfl⟩
  | _ => simp_all [State.answerHalf, State.answerWallclock, State.storeHalf]

/-- The fatal mark is set by an ATTACH that leaves the device unattached (43_attach.md R161). -/
theorem Effect.fatal_writer (h : Effect s i t) (ht : t.fatal = true) : s.fatal = true ∨ t.attached = false := by
  cases h with
  | stopped ha => exact .inr ha
  | _ => simp_all [State.answerHalf, State.answerWallclock, State.storeHalf]

end

/-- Over any step, whatever its input, the sample record is kept or is the next sample drawn. -/
theorem step_wcLast {s t : State} (h : step s = .next t) : t.wcLast = s.wcLast ∨ t.wcLast = some s.clockSample := by
  obtain ⟨_, ⟨_, rfl⟩ | ⟨_, _, _, _, _, rfl⟩ | ⟨_, _, i, _, _, he⟩⟩ := step_next h
  · exact .inl rfl
  · exact .inl rfl
  · exact (exec_next he).2.sample.imp And.left And.left

/-! ### The bytes of the register file after a STORE to a half -/

/-- Every offset is a byte of one of the six halves, or past them all (20_memory.md R52). -/
theorem offset_cases (a : Nat) :
    (∃ k j, j < 4 ∧ a = (fieldSpan (.half k)).1 + j) ∨ 0x18 ≤ a := by
  by_cases h : a < 0x18
  · left
    rcases (by omega : a / 4 = 0 ∨ a / 4 = 1 ∨ a / 4 = 2 ∨ a / 4 = 3 ∨ a / 4 = 4 ∨ a / 4 = 5)
      with e | e | e | e | e | e
    · exact ⟨.mtimeLo, a % 4, by omega, by simp only [fieldSpan]; omega⟩
    · exact ⟨.mtimeHi, a % 4, by omega, by simp only [fieldSpan]; omega⟩
    · exact ⟨.mtimecmpLo, a % 4, by omega, by simp only [fieldSpan]; omega⟩
    · exact ⟨.mtimecmpHi, a % 4, by omega, by simp only [fieldSpan]; omega⟩
    · exact ⟨.divLo, a % 4, by omega, by simp only [fieldSpan]; omega⟩
    · exact ⟨.divHi, a % 4, by omega, by simp only [fieldSpan]; omega⟩
  · exact .inr (by omega)

theorem State.byteAt_past (s : State) {a : Nat} (h : 0x18 ≤ a) : s.byteAt a = none := by
  unfold State.byteAt
  repeat rw [if_neg (by omega)]

/-- No request is contained in two fields: it is decoded to one (20_memory.md R53). -/
theorem inField_unique {f g : Field} {off len : Nat} (hf : inField f off len = true) (hg : inField g off len = true) :
    f = g :=
  DecodeClass.field.inj ((classify_of_inField hf).symm.trans (classify_of_inField hg))

/-- A half's span is four bytes wide and ends with the register file. -/
theorem halfSpan_bounds (h : Half) : (fieldSpan (.half h)).2 = 4 ∧ (fieldSpan (.half h)).1 + 4 ≤ 0x18 := by
  cases h <;> decide

theorem inField_half_iff (h : Half) (off len : Nat) : inField (.half h) off len = true ↔
    1 ≤ len ∧ (fieldSpan (.half h)).1 ≤ off ∧ off + len ≤ (fieldSpan (.half h)).1 + 4 := by
  rw [inField, contained_iff, (halfSpan_bounds h).1]

/-- The halves after a STORE to one of them. -/
theorem State.storeHalf_half (s : State) (h k : Half) (off len : Nat) (wdata : List Byte) :
    (s.storeHalf h off len wdata).half k =
      if k = h then writeLanes (s.half h) (off - (fieldSpan (.half h)).1) len wdata else s.half k := by
  simp [State.storeHalf]

/-- A STORE to a half writes exactly the bytes `[off, off + len)` of the register file (30_encoding.md R73). -/
theorem State.storeHalf_byteAt (s : State) {h : Half} {off len : Nat} {wdata : List Byte}
    (hi : inField (.half h) off len = true) (hw : wdata.length = len) (a : Nat) :
    (s.storeHalf h off len wdata).byteAt a =
      if off ≤ a ∧ a < off + len then wdata[a - off]? else s.byteAt a := by
  obtain ⟨_, hs, he⟩ := (inField_half_iff h off len).1 hi
  rcases offset_cases a with ⟨k, j, hj, rfl⟩ | ha
  · rw [State.byteAt_half _ _ hj, State.byteAt_half _ _ hj, State.storeHalf_half]
    by_cases hk : k = h
    · subst hk
      rw [if_pos rfl, byteOf_writeLanes _ _ _ _ hj, newLane]
      by_cases hin : off ≤ (fieldSpan (.half k)).1 + j ∧ (fieldSpan (.half k)).1 + j < off + len
      · have hlane : laneEnabled (off - (fieldSpan (.half k)).1) len j = true := by simp [laneEnabled]; omega
        have hidx : j - (off - (fieldSpan (.half k)).1) = (fieldSpan (.half k)).1 + j - off := by omega
        have hlt : (fieldSpan (.half k)).1 + j - off < wdata.length := by omega
        rw [if_pos hlane, if_pos hin, hidx]
        simp [hlt]
      · have hlane : laneEnabled (off - (fieldSpan (.half k)).1) len j = false := by simp [laneEnabled]; omega
        simp [hlane, hin]
    · rw [if_neg hk, if_neg]
      rintro ⟨hlo, hhi⟩
      have hbyteK := (inField_half_iff k ((fieldSpan (.half k)).1 + j) 1).2 (by omega)
      have hbyteH := (inField_half_iff h ((fieldSpan (.half k)).1 + j) 1).2 (by omega)
      exact hk (Field.half.inj (inField_unique hbyteK hbyteH))
  · have := (halfSpan_bounds h).2
    rw [State.byteAt_past _ ha, State.byteAt_past _ ha, if_neg (by omega)]

/-! ### What no operation reads -/

/-- The state with another accumulator and another `core.TIP`. -/
def State.setAccTip (s : State) (a : DWord) (tip : Bool) : State :=
  { s with acc := a, coreTip := tip }

theorem State.setAccTip_of_acc {s : State} {a : DWord} (h : s.acc = a) (tip : Bool) :
    s.setAccTip a tip = { s with coreTip := tip } := by
  subst h
  rfl

theorem State.setAccTip_of_coreTip {s : State} {tip : Bool} (h : s.coreTip = tip) (a : DWord) :
    s.setAccTip a tip = { s with acc := a } := by
  subst h
  rfl

/-- The service of a request commutes with a change of the state that keeps the two marks it tests. -/
theorem State.serve_commutes (g : State → State) {s t served served' : State} {len : Nat} {row : Bool}
    (hf : (g s).fatal = s.fatal) (ha : (g s).attached = s.attached) (hfail : (g s).respond .fail = g (s.respond .fail))
    (hserved : served' = g served) (h : s.serve len row served = .next t) :
    (g s).serve len row served' = .next (g t) := by
  obtain ⟨hs, ⟨hr, rfl⟩ | ⟨hl, hat, hrow, rfl⟩⟩ := State.serve_next h
  · rw [State.serve_rejected _ _ _ (hf.trans hs) (ha ▸ hr), hfail]
  · rw [State.serve_served _ (hf.trans hs) (ha.trans hat) (Nat.pos_of_ne_zero hl) hrow, hserved]

/-- But for TICK, no instruction reads the accumulator or `core.TIP`, and each carries them over. -/
theorem exec_setAccTip {i : Instr} {s t : State} (a : DWord) (tip : Bool) (hi : i ≠ .tick) (h : exec i s = .next t) :
    exec i (s.setAccTip a tip) = .next (t.setAccTip a tip) := by
  cases i
  case tick => exact absurd rfl hi
  case attach p =>
    obtain ⟨hf, ha, rfl⟩ := exec_attach_next h
    cases p <;> exact exec_attach (s := s.setAccTip a tip) hf ha _
  all_goals exact State.serve_commutes (fun s => s.setAccTip a tip) rfl rfl rfl rfl h

/-- `core.TIP` is either held, whatever it is, or driven to one value, whatever it is (42_tick_engine.md R147 to
R149). -/
theorem pendingAfter_held_or_driven (condition gie tie : Bool) :
    (∀ tip, pendingAfter condition gie tie tip = tip) ∨
      ∀ tip tip', pendingAfter condition gie tie tip = pendingAfter condition gie tie tip' := by
  cases condition
  · exact .inr fun _ _ => rfl
  · cases h : gie && tie
    · exact .inl fun _ => by simp [pendingAfter, h]
    · exact .inr fun _ _ => by simp [pendingAfter, h]

theorem State.advance_setTip (s : State) (tip : Bool) :
    ({ s with coreTip := tip } : State).advance = { s.advance with coreTip := tip } := by
  by_cases hr : s.acc + 1 = s.divisor
  · rw [State.advance_rollover hr]
    exact State.advance_rollover (s := { s with coreTip := tip }) hr
  · rw [State.advance_count hr]
    exact State.advance_count (s := { s with coreTip := tip }) hr

theorem State.control_setTip (s : State) (tip : Bool) :
    ({ s with coreTip := tip } : State).control =
      { s.control with coreTip := pendingAfter (conditionHolds s.mtime s.mtimecmp) s.coreGie s.coreTie tip } := rfl

/-- TICK on two states that differ in `core.TIP` only. -/
theorem State.tick_setTip (s : State) :
    (∀ tip, ({ s with coreTip := tip } : State).tick = { s.tick with coreTip := tip }) ∨
      ∀ tip, ({ s with coreTip := tip } : State).tick = s.tick := by
  by_cases hd : s.divisor = 0
  · left
    intro tip
    rw [State.tick, State.tick, if_pos hd]
    exact if_pos hd
  · have htick : ∀ tip, ({ s with coreTip := tip } : State).tick = { s.advance.control with
        coreTip := pendingAfter (conditionHolds s.advance.mtime s.advance.mtimecmp) s.advance.coreGie
          s.advance.coreTie tip } := by
      intro tip
      rw [← State.control_setTip, ← State.advance_setTip]
      exact if_neg hd
    have hs : s.tick = s.advance.control := if_neg hd
    rcases pendingAfter_held_or_driven (conditionHolds s.advance.mtime s.advance.mtimecmp) s.advance.coreGie
      s.advance.coreTie with hheld | hdriven
    · exact .inl fun tip => by rw [htick, hheld, hs]
    · exact .inr fun tip => by rw [htick, hdriven tip s.advance.coreTip, hs]; rfl

/-! ### The invariant -/

section
variable {s t : State} {first : Nat}

/-- A sample recorded by one draw is at or above everything the clock has answered, where the last one was so. -/
theorem State.Inv.le_clockSample (hs : s.Inv first) {n : Nat} (hn : first ≤ n) (hd : n < s.clockDraws + 1) :
    Config.wallClock n ≤ s.clockSample := by
  rcases Nat.lt_succ_iff_lt_or_eq.1 hd with hlt | rfl
  · cases hw : s.wcLast with
    | none =>
      have := hs.neverSampled hw
      omega
    | some p => exact BitVec.le_trans (hs.sampleDominates p hw n hn hlt) (State.le_clockSample hw)
  · exact s.wallClock_le_clockSample

/-- Every instruction that answers a next state keeps the invariant. -/
theorem State.Inv.of_exec (hs : s.Inv first) {i : Instr} (h : exec i s = .next t) : t.Inv first := by
  obtain ⟨hf, he⟩ := exec_next h
  constructor
  case constructed =>
    intro ht
    obtain ⟨ha, rfl | rfl⟩ := he.unattached ht
    · exact hs.constructed ha
    · exact hs.constructed ha
  case fatalUnattached =>
    intro ht
    rcases he.fatal_writer ht with hfatal | ha
    · exact absurd hfatal (by simp [hf])
    · exact ha
  case neverSampled =>
    intro hw
    rcases he.sample with ⟨hkept, hdraws⟩ | ⟨hdrawn, _⟩
    · rw [hdraws]
      exact hs.neverSampled (hkept ▸ hw)
    · simp [hdrawn] at hw
  case sampleDominates =>
    intro p hp n hn hlt
    rcases he.sample with ⟨hkept, hdraws⟩ | ⟨hdrawn, hdraws⟩
    · exact hs.sampleDominates p (hkept ▸ hp) n hn (hdraws ▸ hlt)
    · obtain rfl : s.clockSample = p := by simpa [hdrawn] using hp
      exact hs.le_clockSample hn (hdraws ▸ hlt)

/-- The invariant is about neither the pending inputs nor the core's flags. -/
theorem State.Inv.setInputs (hs : s.Inv first) (rest : List Input) : ({ s with inputs := rest } : State).Inv first :=
  ⟨hs.constructed, hs.fatalUnattached, hs.neverSampled, hs.sampleDominates⟩

theorem State.Inv.coreSets (hs : s.Inv first) (gie tie tip : Bool) : (s.coreSets gie tie tip).Inv first :=
  ⟨hs.constructed, hs.fatalUnattached, hs.neverSampled, hs.sampleDominates⟩

end

/-! ### The obligations -/

/-- Settles O47: an idle step and the core's change keep every field the invariant names, and an instruction keeps it by
`State.Inv.of_exec`. -/
theorem everyStepKeepsTheInvariant : Obligations.EveryStepKeepsTheInvariant := by
  intro first s t hs h
  obtain ⟨_, ⟨_, rfl⟩ | ⟨gie, tie, tip, rest, _, rfl⟩ | ⟨_, rest, _, _, _, he⟩⟩ := step_next h
  · exact hs
  · exact (hs.setInputs rest).coreSets gie tie tip
  · exact (hs.setInputs rest).of_exec he

/-- Settles O2: on an unattached device every request is decoded to a rejection. -/
theorem unattachedDeviceFailsEveryRequest : Obligations.UnattachedDeviceFailsEveryRequest := by
  refine ⟨rfl, fun s rest hf ha => ⟨fun off len h => ?_, fun off len wdata hw h => ?_⟩⟩
  · rw [step_load hf h]
    exact exec_load_rejected (s := { s with inputs := rest }) hf (.inr ha)
  · rw [step_store hf hw h]
    exact exec_store_rejected (s := { s with inputs := rest }) hf (.inr ha)

/-- Settles O20: the step is `State.storeHalf`, whose bytes are `State.storeHalf_byteAt`. -/
theorem storeChangesOnlyTheBytesItStores : Obligations.StoreChangesOnlyTheBytesItStores := by
  intro s rest h off len wdata hs hi hw hin
  refine ⟨({ s with inputs := rest } : State).storeHalf h off len wdata, ?_, State.storeHalf_byteAt _ hi hw, ?_⟩
  · rw [step_store hs.2 hw hin]
    exact exec_store_half (s := { s with inputs := rest }) hs hi hw
  · simp [State.storeHalf]

/-- Settles O24, from the writers of each half (`Effect.half_writer`) and of the accumulator. -/
theorem registersHaveOnlyTheirNamedWriters : Obligations.RegistersHaveOnlyTheirNamedWriters := by
  intro i s t h
  have he := (exec_next h).2
  have hmtime : ∀ {k}, t.half k ≠ s.half k →
      (∃ off len wdata, i = storeRow off len wdata (.field (.half k)) ∧ inField (.half k) off len = true) ∨
        (i = .tick ∧ s.divisor ≠ 0 ∧ s.acc + 1 = s.divisor) :=
    fun hk => (he.half_writer hk).imp_right And.right
  have hstored : ∀ {k}, k ≠ .mtimeLo → k ≠ .mtimeHi → t.half k ≠ s.half k →
      ∃ off len wdata, i = storeRow off len wdata (.field (.half k)) ∧ inField (.half k) off len = true :=
    fun hlo hhi hk => (he.half_writer hk).resolve_right fun ⟨hm, _⟩ => hm.elim hlo hhi
  exact ⟨hmtime (k := .mtimeLo), hmtime (k := .mtimeHi), hstored (k := .mtimecmpLo) (by decide) (by decide),
    hstored (k := .mtimecmpHi) (by decide) (by decide), hstored (k := .divLo) (by decide) (by decide),
    hstored (k := .divHi) (by decide) (by decide), he.acc_writer⟩

/-- Settles O25, from the writers of the core's three flags. -/
theorem onlyTickDrivesThePendingFlag : Obligations.OnlyTickDrivesThePendingFlag := by
  intro i s t h
  have he := (exec_next h).2
  exact ⟨he.enables.1, he.enables.2, he.coreTip_writer⟩

/-- Settles O27: TICK holds or drives the flag (`State.tick_setTip`), and no other instruction reads it. -/
theorem pendingFlagIsNeverRead : Obligations.PendingFlagIsNeverRead := by
  intro i s t h
  by_cases hi : i = .tick
  · subst hi
    obtain ⟨hs, rfl⟩ := exec_tick_next h
    have hrun : ∀ tip, exec .tick { s with coreTip := tip } = .next ({ s with coreTip := tip } : State).tick :=
      fun _ => exec_tick hs
    exact s.tick_setTip.imp (fun hheld tip => by rw [hrun, hheld]) fun hdriven tip => by rw [hrun, hdriven]
  · have hacc : t.acc = s.acc := by_contra fun hne => hi ((exec_next h).2.acc_writer hne).1
    left
    intro tip
    rw [← State.setAccTip_of_acc hacc tip]
    exact exec_setAccTip s.acc tip hi h

/-- Settles O28: no instruction but TICK reads the accumulator, and none of them changes `core.TIP`. -/
theorem accumulatorIsInvisibleToBusRequests : Obligations.AccumulatorIsInvisibleToBusRequests := by
  intro i s t a hi h
  have htip : t.coreTip = s.coreTip := by_contra fun hne => hi ((exec_next h).2.coreTip_writer hne).1
  rw [← State.setAccTip_of_coreTip htip a]
  exact exec_setAccTip a s.coreTip hi h

/-- Settles O29: a step keeps the record or draws a sample, which is at or above it. -/
theorem wallclockSamplesNeverDecrease : Obligations.WallclockSamplesNeverDecrease := by
  intro s t p h hp
  rcases step_wcLast h with hkept | hdrawn
  · exact ⟨p, hkept.trans hp, BitVec.le_refl p⟩
  · exact ⟨s.clockSample, hdrawn, State.le_clockSample hp⟩

/-- Settles O1: each pair of halves is its parameter cut in two. -/
theorem resetGivesTheConstructionValues : Obligations.ResetGivesTheConstructionValues := by
  refine ⟨rfl, assemble_halves _, assemble_halves _, assemble_halves _, rfl, fun s h => ?_⟩
  simp [State.clockSample, h]

/-- Settles O3, by the step's equation on a request that decodes. -/
theorem stepRunsTheDecodedInstruction : Obligations.StepRunsTheDecodedInstruction :=
  fun _ _ _ _ hf h hd => step_request hf h hd

/-- Settles O5, by the step's equation with nothing pending. -/
theorem nothingAdvancesWithoutACall : Obligations.NothingAdvancesWithoutACall :=
  fun _ hf h => step_idle hf h

/-- Settles O37, by the value of an assembled pair. -/
theorem sixtyFourBitValuesAreAssembledFromTheirHalves : Obligations.SixtyFourBitValuesAreAssembledFromTheirHalves :=
  fun _ => ⟨assemble_toNat _ _, assemble_toNat _ _, assemble_toNat _ _⟩

/-- Settles O48: no sample is recorded and no draw has been made since construction. -/
theorem invariantHoldsAfterConstruction : Obligations.InvariantHoldsAfterConstruction := by
  intro first
  constructor
  case constructed => exact fun _ => ⟨rfl, assemble_halves _, assemble_halves _, assemble_halves _, rfl⟩
  case fatalUnattached => exact fun _ => rfl
  case neverSampled => exact fun _ => rfl
  case sampleDominates =>
    intro p hp
    cases hp

/-- Settles O51: the placed request decodes as on an attached device (`decode_attachedFor`), and the step consumes it. -/
theorem placedWordRunsAsTheVeryNextStep : Obligations.PlacedWordRunsAsTheVeryNextStep := by
  intro s nbits w i hf hi
  have hd : decode (s.withFetchWord nbits w).attached (wordRequest nbits w) = .ok i :=
    (decode_attachedFor _).trans (decode_wordRequest hi)
  exact step_request (s := s.withFetchWord nbits w) hf rfl hd

end Sys2Proof.Machine
end

section
/-! PROOFS. The memory family (20_memory.md): the spans of the register window, how a core's accesses arrive, and what
LOADs and STOREs of a half do one after the other. -/

namespace Sys2Proof.Machine

/-! ### The spans of the fields -/

/-- Every field's span ends by 0x20 (20_memory.md R52). -/
theorem fieldSpan_end (f : Field) : (fieldSpan f).1 + (fieldSpan f).2 ≤ 0x20 := by
  rcases f with h | _
  · have := halfSpan_bounds h
    omega
  · decide

theorem inField_wallclock_iff (off len : Nat) :
    inField .wallclock off len = true ↔ 1 ≤ len ∧ 0x18 ≤ off ∧ off + len ≤ 0x20 :=
  contained_iff off len 0x18 8

/-- The byte offsets of the fields are those below 0x20, with no gap (20_memory.md R52, R53). -/
theorem exists_inField_byte_iff (a : Nat) : (∃ f, inField f a 1 = true) ↔ a < 0x20 := by
  constructor
  · rintro ⟨f, hf⟩
    have hend := fieldSpan_end f
    obtain ⟨_, _, hlast⟩ := (contained_iff _ _ _ _).1 hf
    omega
  · intro ha
    rcases offset_cases a with ⟨k, j, hj, rfl⟩ | hpast
    · exact ⟨.half k, (inField_half_iff _ _ _).2 (by omega)⟩
    · exact ⟨.wallclock, (inField_wallclock_iff _ _).2 (by omega)⟩

theorem inNoSpan_of_past_fields {off : Nat} (h : 0x20 ≤ off) (len : Nat) : inNoSpan off len := by
  simp only [inNoSpan, contained_false_iff]
  omega

/-- Eight bytes from the start of a 64-bit register are in no span (20_memory.md R57). -/
theorem inNoSpan_register64 {off : Nat} (h : off = 0x00 ∨ off = 0x08 ∨ off = 0x10) : inNoSpan off 8 := by
  simp only [inNoSpan, contained_false_iff]
  omega

/-! ### A core's accesses -/

@[simp] theorem bytesOfNat_length (n v : Nat) : (bytesOfNat n v).length = n := by
  simp [bytesOfNat]

/-- Byte `i` of a value, least significant first (00_scope.md A5). -/
theorem bytesOfNat_getElem? {n i : Nat} (v : Nat) (hi : i < n) :
    (bytesOfNat n v)[i]? = some (BitVec.ofNat 8 (v / 2 ^ (8 * i))) := by
  simp [bytesOfNat, hi, Nat.shiftRight_eq_div_pow]

theorem ofMemRead_base_add (off n : Nat) : Request.ofMemRead (Config.base + off) n = some (.load off n) := by
  simp [Request.ofMemRead]

theorem ofMemWrite_base_add (off n v : Nat) :
    Request.ofMemWrite (Config.base + off) n v = some (.store off n (bytesOfNat n v)) := by
  simp [Request.ofMemWrite]

/-! ### The step on a LOAD or a STORE, by where its range lies -/

section
variable {s : State} {rest : List Input} {off len : Nat} {h : Half}

theorem step_load_half (hs : s.ready) (hi : inField (.half h) off len = true)
    (hin : s.inputs = .request (.load off len) :: rest) :
    step s = .next (({ s with inputs := rest } : State).answerHalf h off len) :=
  (step_load hs.2 hin).trans (exec_load_half (s := { s with inputs := rest }) hs hi)

/-- A LOAD in no span fails, of length 0 or not (40_bus_load.md R108). -/
theorem step_load_inNoSpan (hs : s.ready) (hn : inNoSpan off len) (hin : s.inputs = .request (.load off len) :: rest) :
    step s = .next (({ s with inputs := rest } : State).respond .fail) := by
  rw [step_load hs.2 hin]
  rcases Nat.eq_zero_or_pos len with hl | hl
  · exact exec_load_rejected (s := { s with inputs := rest }) hs.2 (.inl hl)
  · exact exec_load_unmapped (s := { s with inputs := rest }) hs hl hn

variable {wdata : List Byte}

theorem step_store_rejected (hf : s.fatal = false) (hr : len = 0 ∨ s.attached = false) (hw : wdata.length = len)
    (hin : s.inputs = .request (.store off len wdata) :: rest) :
    step s = .next (({ s with inputs := rest } : State).respond .fail) :=
  (step_store hf hw hin).trans (exec_store_rejected (s := { s with inputs := rest }) hf hr)

theorem step_store_half (hs : s.ready) (hi : inField (.half h) off len = true) (hw : wdata.length = len)
    (hin : s.inputs = .request (.store off len wdata) :: rest) :
    step s = .next (({ s with inputs := rest } : State).storeHalf h off len wdata) :=
  (step_store hs.2 hw hin).trans (exec_store_half (s := { s with inputs := rest }) hs hi hw)

/-- A STORE to the wall-clock field fails, on an unattached device too (41_bus_store.md R127). -/
theorem step_store_wallclock (hf : s.fatal = false) (hi : inField .wallclock off len = true) (hw : wdata.length = len)
    (hin : s.inputs = .request (.store off len wdata) :: rest) :
    step s = .next (({ s with inputs := rest } : State).respond .fail) := by
  by_cases ha : s.attached = true
  · rw [step_store hf hw hin]
    exact exec_store_wallclock (s := { s with inputs := rest }) ⟨ha, hf⟩ hi hw
  · exact step_store_rejected hf (.inr (by simpa using ha)) hw hin

/-- A STORE in no span writes nothing; it succeeds inside the window (41_bus_store.md R128, R129). -/
theorem step_store_inNoSpan (hs : s.ready) (hn : inNoSpan off len) (hw : wdata.length = len)
    (hin : s.inputs = .request (.store off len wdata) :: rest) :
    step s = .next (({ s with inputs := rest } : State).respond
      (if 1 ≤ len ∧ off + len ≤ windowSize then .ok else .fail)) := by
  rcases Nat.eq_zero_or_pos len with hl | hl
  · rw [if_neg (by omega)]
    exact step_store_rejected hs.2 (.inl hl) hw hin
  · have hstep := (step_store hs.2 hw hin).trans (exec_store_unmapped (s := { s with inputs := rest }) hs hl hn hw)
    simpa only [inWindow_iff, Nat.succ_le_iff.2 hl, true_and] using hstep

end

/-- A STORE writes a half, or its answer is all it changes: the same answer on every device with that `attached` flag. -/
theorem store_writes_half_or_only_answers (attached : Bool) (off len : Nat) {wdata : List Byte} (hw : wdata.length = len) :
    (attached = true ∧ ∃ h, inField (.half h) off len = true) ∨
      ∃ r, ∀ (s : State) (rest : List Input), s.fatal = false → s.attached = attached →
        s.inputs = .request (.store off len wdata) :: rest →
        step s = .next (({ s with inputs := rest } : State).respond r) := by
  obtain ⟨hr, _⟩ | ⟨ha, f, hi, _⟩ | ⟨ha, _, hn, _⟩ := classify_cases attached off len
  · exact .inr ⟨.fail, fun s rest hf hat hin => step_store_rejected hf (hat ▸ hr) hw hin⟩
  · rcases f with h | _
    · exact .inl ⟨ha, h, hi⟩
    · exact .inr ⟨.fail, fun s rest hf _ hin => step_store_wallclock hf hi hw hin⟩
  · exact .inr ⟨_, fun s rest hf hat hin => step_store_inNoSpan ⟨hat.trans ha, hf⟩ hn hw hin⟩

/-! ### A half stored to and loaded from -/

@[simp] theorem State.setHalf_setHalf (s : State) (h : Half) (v w : Word) :
    (s.setHalf h v).setHalf h w = s.setHalf h w := by
  cases h <;> rfl

/-- A response is overwritten by the next, whatever half is written between. -/
theorem State.respond_setHalf_respond (s : State) (h : Half) (v : Word) (r r' : Response) :
    ((s.respond r).setHalf h v).respond r' = (s.setHalf h v).respond r' := by
  cases h <;> rfl

theorem State.storeHalf_setInputs (s : State) (h : Half) (off len : Nat) (wdata : List Byte) (rest : List Input) :
    ({ s with inputs := rest } : State).storeHalf h off len wdata =
      { s.storeHalf h off len wdata with inputs := rest } := by
  cases h <;> rfl

/-- The same STORE again changes nothing (20_memory.md R61). -/
theorem State.storeHalf_storeHalf (s : State) (h : Half) (off len : Nat) (wdata : List Byte) :
    (s.storeHalf h off len wdata).storeHalf h off len wdata = s.storeHalf h off len wdata := by
  rw [State.storeHalf, State.storeHalf_half, if_pos rfl, writeLanes_writeLanes, State.storeHalf,
    State.respond_setHalf_respond, State.setHalf_setHalf]

/-- The same LOAD again answers the same (20_memory.md R59). -/
theorem State.answerHalf_answerHalf (s : State) (h : Half) (off len : Nat) :
    (s.answerHalf h off len).answerHalf h off len = s.answerHalf h off len := by
  cases h <;> rfl

/-- What a LOAD answered, stored back, changes nothing but the response (20_memory.md R61). -/
theorem State.storeHalf_readBytes (s : State) (h : Half) (off len : Nat) :
    s.storeHalf h off len (readBytes (s.half h) (off - (fieldSpan (.half h)).1) len) = s.respond .ok := by
  rw [State.storeHalf, writeLanes_readBytes, State.setHalf_half]

/-- What a STORE wrote, a LOAD of the same range answers (20_memory.md R62). -/
theorem State.answerHalf_storeHalf (s : State) {h : Half} {off len : Nat} {wdata : List Byte}
    (hi : inField (.half h) off len = true) (hw : wdata.length = len) :
    (s.storeHalf h off len wdata).answerHalf h off len = (s.storeHalf h off len wdata).respond (.data wdata) := by
  obtain ⟨_, _, hend⟩ := (inField_half_iff h off len).1 hi
  rw [State.answerHalf, State.storeHalf_half, if_pos rfl, readBytes_writeLanes _ _ _ hw (by omega)]

theorem State.storeHalf_ready {s : State} (hs : s.ready) (h : Half) (off len : Nat) (wdata : List Byte) :
    (s.storeHalf h off len wdata).ready := by
  simpa [State.ready, State.storeHalf] using hs

@[simp] theorem State.storeHalf_inputs (s : State) (h : Half) (off len : Nat) (wdata : List Byte) :
    (s.storeHalf h off len wdata).inputs = s.inputs := by
  simp [State.storeHalf]

/-! ### The second of two requests for the same range of a half -/

section
variable {s : State} {rest : List Input} {off len : Nat} {h : Half}

theorem step_load_after_load (hs : s.ready) (hi : inField (.half h) off len = true)
    (hin : s.inputs = .request (.load off len) :: rest) :
    step (s.answerHalf h off len) = .next { s.answerHalf h off len with inputs := rest } := by
  rw [step_load_half (s := s.answerHalf h off len) hs hi hin]
  exact congrArg _ (State.answerHalf_answerHalf { s with inputs := rest } h off len)

theorem step_store_after_load (hs : s.ready) (hi : inField (.half h) off len = true)
    (hin : s.inputs = .request (.store off len (readBytes (s.half h) (off - (fieldSpan (.half h)).1) len)) :: rest) :
    step (s.answerHalf h off len) = .next { s with inputs := rest, response := some .ok } := by
  rw [step_store_half (s := s.answerHalf h off len) hs hi (readBytes_length _ _ _) hin]
  exact congrArg _ (State.storeHalf_readBytes { s.answerHalf h off len with inputs := rest } h off len)

variable {wdata : List Byte}

theorem step_load_after_store (hs : s.ready) (hi : inField (.half h) off len = true) (hw : wdata.length = len)
    (hin : s.inputs = .request (.load off len) :: rest) :
    step (s.storeHalf h off len wdata) =
      .next (({ s with inputs := rest } : State).storeHalf h off len wdata |>.respond (.data wdata)) := by
  rw [step_load_half (State.storeHalf_ready hs h off len wdata) hi ((s.storeHalf_inputs h off len wdata).trans hin),
    ← State.storeHalf_setInputs, State.answerHalf_storeHalf _ hi hw]

theorem step_store_after_store (hs : s.ready) (hi : inField (.half h) off len = true) (hw : wdata.length = len)
    (hin : s.inputs = .request (.store off len wdata) :: rest) :
    step (s.storeHalf h off len wdata) = .next { s.storeHalf h off len wdata with inputs := rest } := by
  rw [step_store_half (State.storeHalf_ready hs h off len wdata) hi hw ((s.storeHalf_inputs h off len wdata).trans hin),
    State.storeHalf_setInputs, State.storeHalf_storeHalf]

end

/-- A step that answers a next state is the first of a run. -/
theorem run_succ_of_step {s t : State} (hstep : step s = .next t) (n : Nat) : run (n + 1) s = run n t := by
  rw [run, hstep]

/-! ### The obligations -/

/-- Settles O21: the LOAD finds the lanes that the STORE wrote (`State.answerHalf_storeHalf`). -/
theorem loadAfterStoreReturnsTheStoredBytes : Obligations.LoadAfterStoreReturnsTheStoredBytes := by
  intro s rest h off len wdata hs hi hw hin
  have hstore := step_store_half hs hi hw hin
  have hload := step_load_after_store (s := { s with inputs := .request (.load off len) :: rest }) hs hi hw rfl
  exact ⟨_, (run_succ_of_step hstore 1).trans (run_succ_of_step hload 0), rfl, State.storeHalf_inputs _ _ _ _ _⟩

/-- Settles O22: a STORE that writes no half only answers, the same each time, and the lanes of a half written again, or
written with what was read, stay as they are. -/
theorem storesAreIdempotentAndRoundTrip : Obligations.StoresAreIdempotentAndRoundTrip := by
  refine ⟨fun s rest off len wdata hf hw hin => ?_, fun s rest h off len hs hi hin => ?_,
    fun s rest off len wdata hf hi hw hin => step_store_wallclock hf hi hw hin⟩
  · rcases store_writes_half_or_only_answers s.attached off len hw with ⟨ha, h, hi⟩ | ⟨r, hanswer⟩
    · exact ⟨_, step_store_half ⟨ha, hf⟩ hi hw hin,
        step_store_after_store (s := { s with inputs := .request (.store off len wdata) :: rest }) ⟨ha, hf⟩ hi hw rfl⟩
    · exact ⟨_, hanswer s _ hf rfl hin, hanswer _ rest hf rfl rfl⟩
  · exact ⟨_, _, step_load_half hs hi hin, rfl,
      step_store_after_load (s := { s with inputs := .request (.store off len _) :: rest }) hs hi rfl⟩

/-- Settles O32, by the class that a range is decoded to and the arithmetic of the spans. -/
theorem spansAreDisjointAndCoverTheFields : Obligations.SpansAreDisjointAndCoverTheFields :=
  ⟨fun _ _ _ _ => inField_unique, exists_inField_byte_iff, fun _ len h => inNoSpan_of_past_fields h len⟩

/-- Settles O33: a range that reaches past the window is in no span (`inNoSpan_of_outside`). -/
theorem requestsPastTheWindowFail : Obligations.RequestsPastTheWindowFail := by
  intro s rest off len hs hpast
  have hn := inNoSpan_of_outside hpast
  refine ⟨step_load_inNoSpan hs hn, fun wdata hw hin => ?_⟩
  rw [step_store_inNoSpan hs hn hw hin, if_neg (by omega)]
  rfl

/-- Settles O35: the spans bound what a request moves, and the eight bytes of a 64-bit register cross two of them. -/
theorem noRequestMovesAWhole64BitRegister : Obligations.NoRequestMovesAWhole64BitRegister := by
  refine ⟨fun h off len hi => ?_, fun off len hi => ?_, fun s rest off hs hoff => ?_⟩
  · have := (inField_half_iff h off len).1 hi
    omega
  · have := (inField_wallclock_iff off len).1 hi
    omega
  · have hn := inNoSpan_register64 hoff
    have hsize := le_windowSize
    refine ⟨step_load_inNoSpan hs hn, fun wdata hw hin => ?_⟩
    rw [step_store_inNoSpan hs hn hw hin, if_pos (by omega)]
    rfl

/-- Settles O36: the answer is all that a LOAD of a half changes, and the half it reads is as before. -/
theorem registerLoadsHaveNoSideEffect : Obligations.RegisterLoadsHaveNoSideEffect := by
  intro s rest h off len hs hi hin
  exact ⟨_, step_load_half hs hi hin, rfl,
    step_load_after_load (s := { s with inputs := .request (.load off len) :: rest }) hs hi rfl⟩

/-- Settles O53, by the equations of the two accesses at `BASE + off` and the bytes of a value. -/
theorem routedCoreAccessesArriveAsRequests : Obligations.RoutedCoreAccessesArriveAsRequests :=
  fun off n v => ⟨ofMemRead_base_add off n, bytesOfNat n v, ofMemWrite_base_add off n v, bytesOfNat_length n v,
    fun _ => bytesOfNat_getElem? v⟩

end Sys2Proof.Machine
end

section
/-! PROOFS. The encoding family (30_encoding.md): the instructions as rows, decode and encode, what is refused, the bytes of
a wall-clock LOAD and the lanes of a STORE, and the model's own byte form. -/

namespace Sys2Proof.Machine

/-! ### The instructions as the rows of a decode class -/

/-- Every instruction is the LOAD row or the STORE row of a decode class, or TICK, or ATTACH: the case split over rows. -/
theorem instr_rows {motive : Instr → Prop} (load : ∀ off len c, motive (loadRow off len c))
    (store : ∀ off len wdata c, motive (storeRow off len wdata c)) (tick : motive .tick)
    (attach : ∀ p, motive (.attach p)) (i : Instr) : motive i := by
  cases i with
  | loadMtimeLo off len => exact load off len (.field (.half .mtimeLo))
  | loadMtimeHi off len => exact load off len (.field (.half .mtimeHi))
  | loadMtimecmpLo off len => exact load off len (.field (.half .mtimecmpLo))
  | loadMtimecmpHi off len => exact load off len (.field (.half .mtimecmpHi))
  | loadDivLo off len => exact load off len (.field (.half .divLo))
  | loadDivHi off len => exact load off len (.field (.half .divHi))
  | loadWallclock off len => exact load off len (.field .wallclock)
  | loadFail off len => exact load off len .outOfWindow
  | storeMtimeLo off len wdata => exact store off len wdata (.field (.half .mtimeLo))
  | storeMtimeHi off len wdata => exact store off len wdata (.field (.half .mtimeHi))
  | storeMtimecmpLo off len wdata => exact store off len wdata (.field (.half .mtimecmpLo))
  | storeMtimecmpHi off len wdata => exact store off len wdata (.field (.half .mtimecmpHi))
  | storeDivLo off len wdata => exact store off len wdata (.field (.half .divLo))
  | storeDivHi off len wdata => exact store off len wdata (.field (.half .divHi))
  | storeWallclock off len wdata => exact store off len wdata (.field .wallclock)
  | storeNop off len wdata => exact store off len wdata .unmappedInWindow
  | storeFail off len wdata => exact store off len wdata .outOfWindow
  | tick => exact tick
  | attach p => exact attach p

section
variable (attached : Bool) (off len : Nat)

@[simp] theorem encode_loadRow (c : DecodeClass) : encode (loadRow off len c) = .load off len := by
  rcases c with _ | _ | ((_ | _ | _ | _ | _ | _) | _) | _ | _ <;> rfl

@[simp] theorem wellFormed_loadRow_field (f : Field) : (loadRow off len (.field f)).wellFormed = inField f off len := by
  rcases f with (_ | _ | _ | _ | _ | _) | _ <;> rfl

@[simp] theorem selected_loadRow_field (f : Field) :
    (loadRow off len (.field f)).selected attached = (attached && inField f off len) := by
  rcases f with (_ | _ | _ | _ | _ | _) | _ <;> rfl

variable (wdata : List Byte)

@[simp] theorem encode_storeRow (c : DecodeClass) : encode (storeRow off len wdata c) = .store off len wdata := by
  rcases c with _ | _ | ((_ | _ | _ | _ | _ | _) | _) | _ | _ <;> rfl

@[simp] theorem wellFormed_storeRow_field (f : Field) :
    (storeRow off len wdata (.field f)).wellFormed = (inField f off len && wdata.length == len) := by
  rcases f with (_ | _ | _ | _ | _ | _) | _ <;> rfl

@[simp] theorem selected_storeRow_field (f : Field) :
    (storeRow off len wdata (.field f)).selected attached = (attached && inField f off len) := by
  rcases f with (_ | _ | _ | _ | _ | _) | _ <;> rfl

end

/-! ### The row of a request is the one whose match condition holds -/

section
variable {attached : Bool} {off len : Nat}

theorem selected_loadFail_iff : (Instr.loadFail off len).selected attached = true ↔
    (len = 0 ∨ attached = false) ∨ inNoSpan off len := by
  simp [Instr.selected, inSomeField_false_iff]

/-- The row a LOAD is decoded to matches it. -/
theorem loadRow_classify_selected (attached : Bool) (off len : Nat) :
    (loadRow off len (classify attached off len)).wellFormed = true ∧
      (loadRow off len (classify attached off len)).selected attached = true := by
  obtain ⟨hr, hc | hc⟩ | ⟨rfl, f, hf, hc⟩ | ⟨rfl, _, hn, hc⟩ := classify_cases attached off len <;> rw [hc]
  · exact ⟨rfl, selected_loadFail_iff.2 (.inl hr)⟩
  · exact ⟨rfl, selected_loadFail_iff.2 (.inl hr)⟩
  · simp [hf]
  · split <;> exact ⟨rfl, selected_loadFail_iff.2 (.inr hn)⟩

/-- A LOAD that is rejected, or is in no span, is decoded to LOAD.FAIL (40_bus_load.md R108). -/
theorem loadRow_classify_fail (hs : (Instr.loadFail off len).selected attached = true) :
    loadRow off len (classify attached off len) = .loadFail off len := by
  by_cases hr : len = 0 ∨ attached = false
  · rcases classify_rejected (off := off) hr with hc | hc <;> rw [hc, loadRow]
  · have hn := (selected_loadFail_iff.1 hs).resolve_left hr
    simp only [not_or, Bool.not_eq_false] at hr
    obtain ⟨hl, rfl⟩ := hr
    rw [classify_of_inNoSpan (Nat.pos_of_ne_zero hl) hn]
    split <;> rfl

/-- A LOAD row that matches its request is the row the request is decoded to. -/
theorem loadRow_classify_of_selected {c : DecodeClass} (hs : (loadRow off len c).selected attached = true) :
    loadRow off len (classify attached off len) = loadRow off len c := by
  cases c with
  | field f =>
    simp only [selected_loadRow_field, Bool.and_eq_true] at hs
    rw [hs.1, classify_of_inField hs.2]
  | _ => exact loadRow_classify_fail hs

variable {wdata : List Byte}

theorem selected_storeNop_iff : (Instr.storeNop off len wdata).selected attached = true ↔
    attached = true ∧ 1 ≤ len ∧ inWindow off len = true ∧ inNoSpan off len := by
  simp [Instr.selected, inSomeField_false_iff, and_assoc]

theorem selected_storeFail_iff : (Instr.storeFail off len wdata).selected attached = true ↔
    (len = 0 ∨ attached = false) ∨ (inWindow off len = false ∧ inNoSpan off len) := by
  simp [Instr.selected, inSomeField_false_iff]

/-- The row a STORE is decoded to matches it. -/
theorem storeRow_classify_selected (attached : Bool) (off : Nat) (hw : wdata.length = len) :
    (storeRow off len wdata (classify attached off len)).wellFormed = true ∧
      (storeRow off len wdata (classify attached off len)).selected attached = true := by
  have hlen : (wdata.length == len) = true := by simpa using hw
  obtain ⟨hr, hc | hc⟩ | ⟨rfl, f, hf, hc⟩ | ⟨rfl, hl, hn, hc⟩ := classify_cases attached off len <;> rw [hc]
  · exact ⟨hlen, selected_storeFail_iff.2 (.inl hr)⟩
  · exact ⟨hlen, selected_storeFail_iff.2 (.inl hr)⟩
  · simp [hf, hw]
  · split
    · rename_i hin
      exact ⟨by simp [storeRow, Instr.wellFormed, (inSomeField_false_iff off len).2 hn, hl, hin, hw],
        selected_storeNop_iff.2 ⟨rfl, hl, hin, hn⟩⟩
    · exact ⟨hlen, selected_storeFail_iff.2 (.inr ⟨by simp_all, hn⟩)⟩

/-- A STORE that is rejected, or is past the window, is decoded to STORE.FAIL (41_bus_store.md R129). -/
theorem storeRow_classify_fail (hs : (Instr.storeFail off len wdata).selected attached = true) :
    storeRow off len wdata (classify attached off len) = .storeFail off len wdata := by
  by_cases hr : len = 0 ∨ attached = false
  · rcases classify_rejected (off := off) hr with hc | hc <;> rw [hc, storeRow]
  · obtain ⟨hout, hn⟩ := (selected_storeFail_iff.1 hs).resolve_left hr
    simp only [not_or, Bool.not_eq_false] at hr
    obtain ⟨hl, rfl⟩ := hr
    rw [classify_of_inNoSpan (Nat.pos_of_ne_zero hl) hn, hout]
    rfl

/-- A STORE row that matches its request is the row the request is decoded to. -/
theorem storeRow_classify_of_selected {c : DecodeClass} (hs : (storeRow off len wdata c).selected attached = true) :
    storeRow off len wdata (classify attached off len) = storeRow off len wdata c := by
  cases c with
  | field f =>
    simp only [selected_storeRow_field, Bool.and_eq_true] at hs
    rw [hs.1, classify_of_inField hs.2]
  | unmappedInWindow =>
    obtain ⟨rfl, hl, hin, hn⟩ := selected_storeNop_iff.1 hs
    rw [classify_of_inNoSpan hl hn, if_pos hin]
  | _ => exact storeRow_classify_fail hs

end

/-! ### The decoder -/

theorem decode_store_ok_iff {attached : Bool} {off len : Nat} {wdata : List Byte} {i : Instr} :
    decode attached (.store off len wdata) = .ok i ↔
      wdata.length = len ∧ i = storeRow off len wdata (classify attached off len) := by
  by_cases hw : wdata.length = len
  · simp [decode, hw, eq_comm]
  · simp [decode, hw]

theorem encode_of_decode {attached : Bool} {r : Request} {i : Instr} (h : decode attached r = .ok i) : encode i = r := by
  cases r with
  | load off len => cases h; exact encode_loadRow off len _
  | store off len wdata =>
    obtain ⟨_, rfl⟩ := decode_store_ok_iff.1 h
    exact encode_storeRow off len wdata _
  | tick => cases h; rfl
  | attach p => cases h; rfl
  | fetch => cases h
  | foreign => cases h

/-- Whatever is decoded is its request's matching row. -/
theorem selected_of_decode {attached : Bool} {r : Request} {i : Instr} (h : decode attached r = .ok i) :
    i.wellFormed = true ∧ i.selected attached = true := by
  cases r with
  | load off len => cases h; exact loadRow_classify_selected attached off len
  | store off len wdata =>
    obtain ⟨hw, rfl⟩ := decode_store_ok_iff.1 h
    exact storeRow_classify_selected attached off hw
  | tick => cases h; exact ⟨rfl, rfl⟩
  | attach p => cases h; exact ⟨rfl, rfl⟩
  | fetch => cases h
  | foreign => cases h

/-- A well-formed STORE row's data has the stated length (30_encoding.md R70). -/
theorem wdata_length_of_wellFormed {off len : Nat} {wdata : List Byte} {c : DecodeClass}
    (h : (storeRow off len wdata c).wellFormed = true) : wdata.length = len := by
  cases c with
  | field f => simp_all
  | _ => simp_all [storeRow, Instr.wellFormed]

/-- What the decoder reads no instruction from (30_encoding.md R70). -/
theorem decode_error_iff (attached : Bool) (r : Request) (e : DecodeError) :
    decode attached r = .error e ↔
      (∃ off len, r = .fetch off len ∧ e = .fetchFromWindow) ∨ (∃ kind, r = .foreign kind ∧ e = .unknownKind kind) ∨
        ∃ off len wdata, r = .store off len wdata ∧ wdata.length ≠ len ∧ e = .wdataLength := by
  cases r with
  | store off len wdata =>
    by_cases hw : wdata.length = len
    · simp [decode, hw]
    · simp [decode, hw, eq_comm (a := e)]
  | _ => simp [decode, eq_comm (a := e)]

/-! ### What is refused -/

section
variable {s : State} {r : Refusal}

/-- At length 0 the rejection comes first: whether the row holds is not asked (30_encoding.md R72). -/
theorem State.serve_congr_row (s : State) {len : Nat} {row row' : Bool} (served : State) (h : len ≠ 0 → row = row') :
    s.serve len row served = s.serve len row' served := by
  by_cases hl : len = 0
  · simp [State.serve, hl]
  · rw [h hl]

theorem State.serve_refused_iff {len : Nat} {row : Bool} {served : State} : s.serve len row served = .refused r ↔
    s.fatal = false ∧ s.attached = true ∧ len ≠ 0 ∧ row = false ∧ r = .rowNotSelected := by
  constructor
  · intro h
    unfold State.serve State.unlessFatal at h
    split at h
    · cases h
    · rename_i hf
      split at h
      · cases h
      · rename_i hr
        simp only [not_or, Bool.not_eq_false] at hr
        split at h
        · cases h
        · cases h
          exact ⟨by simpa using hf, hr.2, hr.1, by simpa using ‹¬ row = true›, rfl⟩
  · rintro ⟨hf, ha, hl, rfl, rfl⟩
    simp [State.serve, State.unlessFatal, hf, ha, hl]

/-- A LOAD row serves its range exactly where it is well formed and matches (log 9). -/
theorem exec_loadRow (off len : Nat) (c : DecodeClass) (s : State) : ∃ served, exec (loadRow off len c) s =
    s.serve len ((loadRow off len c).wellFormed && (loadRow off len c).selected true) served := by
  cases c with
  | field f =>
    rw [wellFormed_loadRow_field, selected_loadRow_field, Bool.true_and, Bool.and_self]
    rcases f with (_ | _ | _ | _ | _ | _) | _ <;> exact ⟨_, rfl⟩
  | _ => exact ⟨_, State.serve_congr_row _ _ fun hl => by simp [loadRow, Instr.wellFormed, Instr.selected, hl]⟩

/-- A STORE row serves its range exactly where it is well formed and matches (log 9). -/
theorem exec_storeRow (off len : Nat) (wdata : List Byte) (c : DecodeClass) (s : State) :
    ∃ served, exec (storeRow off len wdata c) s =
      s.serve len ((storeRow off len wdata c).wellFormed && (storeRow off len wdata c).selected true) served := by
  cases c with
  | field f =>
    rw [wellFormed_storeRow_field, selected_storeRow_field, Bool.true_and, Bool.and_right_comm, Bool.and_self]
    rcases f with (_ | _ | _ | _ | _ | _) | _ <;> exact ⟨_, rfl⟩
  | unmappedInWindow =>
    refine ⟨_, State.serve_congr_row _ _ fun hl => ?_⟩
    have hpos : 1 ≤ len := Nat.pos_of_ne_zero hl
    rw [Bool.eq_iff_iff]
    simp only [storeRow, Instr.wellFormed, Instr.selected, Bool.and_eq_true, decide_eq_true_eq]
    tauto
  | _ =>
    refine ⟨_, State.serve_congr_row _ _ fun hl => ?_⟩
    rw [Bool.and_comm]
    simp [storeRow, Instr.wellFormed, Instr.selected, beq_false_of_ne hl]

theorem exec_tick_not_refused : exec .tick s ≠ .refused r := by
  simp only [exec, execTick, State.unlessFatal]
  split
  · simp
  · split <;> simp

theorem exec_attach_not_refused (p : Bool) : exec (.attach p) s ≠ .refused r := by
  simp only [exec, execAttach, State.unlessFatal]
  split
  · simp
  · split <;> simp

theorem exists_range_loadRow_iff (off len : Nat) (c : DecodeClass) :
    (∃ off' len', len' ≠ 0 ∧ (encode (loadRow off len c) = .load off' len' ∨
      ∃ wdata', encode (loadRow off len c) = .store off' len' wdata')) ↔ len ≠ 0 := by
  simp

theorem exists_range_storeRow_iff (off len : Nat) (wdata : List Byte) (c : DecodeClass) :
    (∃ off' len', len' ≠ 0 ∧ (encode (storeRow off len wdata c) = .load off' len' ∨
      ∃ wdata', encode (storeRow off len wdata c) = .store off' len' wdata')) ↔ len ≠ 0 := by
  simp

/-- A LOAD or STORE row is refused by its service only, and TICK and ATTACH never are (log 9). -/
theorem exec_refused_iff {i : Instr} : exec i s = .refused r ↔
    s.fatal = false ∧ s.attached = true ∧ r = .rowNotSelected ∧ (i.wellFormed && i.selected true) = false ∧
      ∃ off len, len ≠ 0 ∧ (encode i = .load off len ∨ ∃ wdata, encode i = .store off len wdata) := by
  cases i using instr_rows with
  | load off len c =>
    obtain ⟨served, he⟩ := exec_loadRow off len c s
    rw [he, State.serve_refused_iff, exists_range_loadRow_iff]
    tauto
  | store off len wdata c =>
    obtain ⟨served, he⟩ := exec_storeRow off len wdata c s
    rw [he, State.serve_refused_iff, exists_range_storeRow_iff]
    tauto
  | tick => simp [encode, exec_tick_not_refused]
  | attach p => simp [encode, exec_attach_not_refused]

/-- The step refuses a request that is not decoded, and no other: a decoded one matches its row. -/
theorem step_refused_iff : step s = .refused r ↔ s.fatal = false ∧
    ∃ q rest e, s.inputs = .request q :: rest ∧ decode s.attached q = .error e ∧ r = refusalOf e := by
  constructor
  · intro h
    unfold step at h
    split at h
    · cases h
    · rename_i hf
      refine ⟨by simpa using hf, ?_⟩
      split at h
      · cases h
      · cases h
      · split at h
        · rename_i hd
          obtain ⟨hw, hs⟩ := selected_of_decode hd
          obtain ⟨_, ha, _, hn, _⟩ := exec_refused_iff.1 h
          rw [show s.attached = true from ha] at hs
          simp [hw, hs] at hn
        · cases h
          exact ⟨_, _, _, ‹_›, ‹_›, rfl⟩
  · rintro ⟨hf, q, rest, e, hin, hd, rfl⟩
    simp [step, hf, hin, hd]

end

/-! ### The wall-clock sample, the lanes of a half, and the core's change -/

/-- The bytes a LOAD answers (30_encoding.md R74). -/
theorem bytesRead_readBytes (v : BitVec n) (k len : Nat) : bytesRead v k len (readBytes v k len) :=
  ⟨readBytes_length v k len, fun _ hi => readBytes_getElem? v k len hi⟩

/-- The sample is the clock's answer where that is not below the last one (10_state.md R29). -/
theorem State.clockSample_of_le {s : State} (h : ∀ p, s.wcLast = some p → p ≤ Config.wallClock s.clockDraws) :
    s.clockSample = Config.wallClock s.clockDraws := by
  unfold State.clockSample
  split
  · rfl
  · exact if_pos (h _ ‹_›)

theorem exec_loadWallclock {s : State} {off len : Nat} (hs : s.ready) (hi : inField .wallclock off len = true) :
    exec (.loadWallclock off len) s = .next (s.answerWallclock off len) :=
  State.serve_served _ hs.2 hs.1 (inField_pos hi) hi

/-- The enabled lanes of a written half take the input bytes (30_encoding.md R73). -/
theorem lanesWritten_writeLanes (v : Word) (k len : Nat) (wdata : List Byte) :
    lanesWritten v (writeLanes v k len wdata) k len wdata := by
  intro j hj
  change byteOf j (writeLanes v k len wdata) = _
  rw [byteOf_writeLanes v k len wdata hj]
  simp [newLane, laneEnabled, byteOf]

/-- A STORE contained in a half, on a ready device: that half is written, lane by lane, and OK answered. -/
theorem exec_storeRow_half {s : State} {h : Half} {off len : Nat} {wdata : List Byte} (hs : s.ready)
    (hw : wdata.length = len) (hi : inField (.half h) off len = true) :
    ∃ v, exec (storeRow off len wdata (.field (.half h))) s = .next ((s.setHalf h v).respond .ok) ∧
      lanesWritten (s.half h) v (off - (fieldSpan (.half h)).1) len wdata := by
  refine ⟨_, ?_, lanesWritten_writeLanes (s.half h) (off - (fieldSpan (.half h)).1) len wdata⟩
  have hrow := exec_store_half hs hi hw
  rwa [hs.1, classify_of_inField hi] at hrow

theorem step_core {s : State} {gie tie tip : Bool} {rest : List Input} (hf : s.fatal = false)
    (h : s.inputs = .core gie tie tip :: rest) :
    step s = .next (({ s with inputs := rest } : State).coreSets gie tie tip) := by
  simp [step, hf, h]

/-! ### The model's own byte form (log 8) -/

theorem bytesOfNat_succ (n v : Nat) : bytesOfNat (n + 1) v = BitVec.ofNat 8 v :: bytesOfNat n (v / 256) := by
  simp only [bytesOfNat, List.range_succ_eq_map, List.map_cons, List.map_map, Nat.mul_zero, Nat.shiftRight_zero]
  congr 1
  apply List.map_congr_left
  intro i _
  have hshift : 8 * (i + 1) = 8 + 8 * i := by omega
  rw [Function.comp_apply, hshift, Nat.shiftRight_add, Nat.shiftRight_eq_div_pow v 8]

/-- The low bytes of a value, read back. -/
theorem natOfBytes_bytesOfNat (n v : Nat) : natOfBytes (bytesOfNat n v) = v % 256 ^ n := by
  induction n generalizing v with
  | zero => simp [bytesOfNat, natOfBytes, Nat.mod_one]
  | succ n ih =>
    rw [bytesOfNat_succ, natOfBytes, ih, Nat.pow_succ', Nat.mod_mul, BitVec.toNat_ofNat]

theorem natOfBytes_offset {off : Nat} (h : off < 2 ^ 64) : natOfBytes (bytesOfNat 8 off) = off := by
  rw [natOfBytes_bytesOfNat]
  exact Nat.mod_eq_of_lt h

/-- The bytes of a LOAD: its kind, its length, eight bytes of offset. -/
theorem decodeBytes_load {offset : List Byte} (len : Byte) (more : List Byte) (ho : offset.length = 8) :
    decodeBytes (0#8 :: len :: (offset ++ more)) = .ok (.load (natOfBytes offset) len.toNat, more) := by
  simp [decodeBytes, ho]

/-- The bytes of a STORE: its kind, its length, eight bytes of offset, its data. -/
theorem decodeBytes_store {offset wdata : List Byte} {len : Byte} (more : List Byte) (ho : offset.length = 8)
    (hw : wdata.length = len.toNat) :
    decodeBytes (1#8 :: len :: (offset ++ (wdata ++ more))) =
      .ok (.store (natOfBytes offset) len.toNat wdata, more) := by
  have hrest : (offset ++ (wdata ++ more)).drop (8 + wdata.length) = more := by
    rw [← List.append_assoc]
    exact List.drop_left' (by simp [ho])
  simp [decodeBytes, ho, ← hw, hrest]

/-! ### The obligations -/

/-- Settles O30: the row that matches is the one its request is decoded to. -/
theorem decodeOfEncodeIsTheInstruction : Obligations.DecodeOfEncodeIsTheInstruction := by
  intro attached i hw hs
  cases i using instr_rows with
  | load off len c => rw [encode_loadRow, decode, loadRow_classify_of_selected hs]
  | store off len wdata c =>
    rw [encode_storeRow, decode, if_pos (wdata_length_of_wellFormed hw), storeRow_classify_of_selected hs]
  | tick => rfl
  | attach p => rfl

/-- Settles O12: only what is not decoded is refused (`step_refused_iff`), and that is `decode_error_iff`. -/
theorem stepRefusesOnlyWhatIsNoOperationOfTheBlock : Obligations.StepRefusesOnlyWhatIsNoOperationOfTheBlock := by
  intro s r
  rw [step_refused_iff]
  refine and_congr_right fun _ => ?_
  simp only [decode_error_iff]
  constructor
  · rintro ⟨q, rest, e, hin, ⟨off, len, rfl, rfl⟩ | ⟨kind, rfl, rfl⟩ | ⟨off, len, wdata, rfl, hw, rfl⟩, rfl⟩
    · exact ⟨rest, .inl ⟨off, len, hin, rfl⟩⟩
    · exact ⟨rest, .inr (.inl ⟨kind, hin, rfl⟩)⟩
    · exact ⟨rest, .inr (.inr ⟨off, len, wdata, hin, hw, rfl⟩)⟩
  · rintro ⟨rest, ⟨off, len, hin, rfl⟩ | ⟨kind, hin, rfl⟩ | ⟨off, len, wdata, hin, hw, rfl⟩⟩
    · exact ⟨_, rest, _, hin, .inl ⟨off, len, rfl, rfl⟩, rfl⟩
    · exact ⟨_, rest, _, hin, .inr (.inl ⟨kind, rfl, rfl⟩), rfl⟩
    · exact ⟨_, rest, _, hin, .inr (.inr ⟨off, len, wdata, rfl, hw, rfl⟩), rfl⟩

/-- Settles O14: the sample is `State.clockSample`, and its bytes are answered. -/
theorem loadOfTheWallclockTakesOneSample : Obligations.LoadOfTheWallclockTakesOneSample :=
  fun s off len hs hi => ⟨s.clockSample, _, exec_loadWallclock hs hi, bytesRead_readBytes s.clockSample (off - 0x18) len,
    fun _ => State.le_clockSample, State.clockSample_of_le⟩

/-- Settles O16, half by half, from the one lemma over halves (`exec_storeRow_half`). -/
theorem storeToAHalfWritesItsEnabledLanes : Obligations.StoreToAHalfWritesItsEnabledLanes :=
  fun _ _ _ _ hs hw => ⟨exec_storeRow_half (h := .mtimeLo) hs hw, exec_storeRow_half (h := .mtimeHi) hs hw,
    exec_storeRow_half (h := .mtimecmpLo) hs hw, exec_storeRow_half (h := .mtimecmpHi) hs hw,
    exec_storeRow_half (h := .divLo) hs hw, exec_storeRow_half (h := .divHi) hs hw⟩

/-- Settles O31: a decoded row is a row of its request, and matches it. -/
theorem decodedInstructionIsTheSelectedRow : Obligations.DecodedInstructionIsTheSelectedRow :=
  fun _ _ _ h => ⟨encode_of_decode h, selected_of_decode h⟩

/-- Settles O50: the offset is read back from its eight bytes and the length from its one. -/
theorem byteFormRoundTrips : Obligations.ByteFormRoundTrips := by
  have hlen : ∀ {len : Nat}, len < 256 → (BitVec.ofNat 8 len).toNat = len := fun h => Nat.mod_eq_of_lt h
  refine ⟨fun off len more ho hl => ?_, fun off len wdata more ho hl hw => ?_, fun more => rfl, fun p more => ?_⟩
  · have h := decodeBytes_load (BitVec.ofNat 8 len) more (bytesOfNat_length 8 off)
    rwa [natOfBytes_offset ho, hlen hl] at h
  · have h := decodeBytes_store more (bytesOfNat_length 8 off) (hw.trans (hlen hl).symm)
    rw [natOfBytes_offset ho, hlen hl] at h
    simpa [encodeBytes] using h
  · cases p <;> rfl

/-- Settles O54: every LOAD and STORE row is served behind the rejections. -/
theorem rejectionsComeBeforeTheRow : Obligations.RejectionsComeBeforeTheRow := by
  rintro i s hf ⟨off, len, henc, hr⟩
  cases i using instr_rows with
  | load off' len' c =>
    obtain ⟨rfl, rfl⟩ : off' = off ∧ len' = len := by simpa using henc
    obtain ⟨served, he⟩ := exec_loadRow off' len' c s
    rw [he]
    exact State.serve_rejected _ _ _ hf hr
  | store off' len' wdata c =>
    obtain ⟨rfl, rfl⟩ : off' = off ∧ len' = len := by simpa using henc
    obtain ⟨served, he⟩ := exec_storeRow off' len' wdata c s
    rw [he]
    exact State.serve_rejected _ _ _ hf hr
  | tick => simp [encode] at henc
  | attach p => simp [encode] at henc

/-- Settles O55, by what an instruction is refused for (`exec_refused_iff`). -/
theorem rowIsRefusedExactlyOnOperandsOfAnotherRow : Obligations.RowIsRefusedExactlyOnOperandsOfAnotherRow :=
  fun _ _ _ => exec_refused_iff

/-- Settles O4, by the step's equation on the core's change. -/
theorem coreChangesItsFlagsBetweenOperations : Obligations.CoreChangesItsFlagsBetweenOperations :=
  fun _ _ _ _ _ hf h => step_core hf h

/-- Settles O52, by running the decoder on the ten requests. -/
theorem decoderReadsTheSpecsOwnRequests : Obligations.DecoderReadsTheSpecsOwnRequests :=
  ⟨rfl, rfl, rfl, rfl, rfl, rfl, rfl, rfl, rfl, rfl⟩

end Sys2Proof.Machine
end

section
/-! PROOFS. The bus-load family (40_bus_load.md): the bytes of a half, and where a LOAD fails. -/

namespace Sys2Proof.Machine

/-- A LOAD contained in a half, on a ready device: the half's bytes are answered (30_encoding.md R74), and the response is
all that changes. -/
theorem exec_loadRow_half {s : State} {h : Half} {off len : Nat} (hs : s.ready) (hi : inField (.half h) off len = true) :
    ∃ rdata, exec (loadRow off len (.field (.half h))) s = .next (s.respond (.data rdata)) ∧
      bytesRead (s.half h) (off - (fieldSpan (.half h)).1) len rdata := by
  refine ⟨_, ?_, bytesRead_readBytes (s.half h) (off - (fieldSpan (.half h)).1) len⟩
  have hrow := exec_load_half hs hi
  rwa [hs.1, classify_of_inField hi] at hrow

/-! ### The obligations -/

/-- Settles O13, half by half, from the one lemma over halves (`exec_loadRow_half`). -/
theorem loadOfAHalfAnswersItsBytes : Obligations.LoadOfAHalfAnswersItsBytes :=
  fun _ _ _ hs => ⟨exec_loadRow_half (h := .mtimeLo) hs, exec_loadRow_half (h := .mtimeHi) hs,
    exec_loadRow_half (h := .mtimecmpLo) hs, exec_loadRow_half (h := .mtimecmpHi) hs,
    exec_loadRow_half (h := .divLo) hs, exec_loadRow_half (h := .divHi) hs⟩

/-- Settles O34: in no span a LOAD fails wherever it lies, and a STORE of at least one byte inside the window succeeds. -/
theorem unmappedLoadFailsWhereStoreSucceeds : Obligations.UnmappedLoadFailsWhereStoreSucceeds := by
  intro s rest off len hs hl hwin hn
  refine ⟨step_load_inNoSpan hs hn, fun wdata hw hin => ?_⟩
  rw [step_store_inNoSpan hs hn hw hin, if_pos ⟨hl, hwin⟩]
  rfl

/-- Settles O15: the rejections and the row's own answer are the same FAIL (`State.serve_fail`). -/
theorem loadFailureChangesNothing : Obligations.LoadFailureChangesNothing := by
  intro s off len hf hfail
  refine State.serve_fail hf (hfail.imp_right (Or.imp_right fun hn => ?_))
  rw [(inSomeField_false_iff off len).2 hn, Bool.not_false]

end Sys2Proof.Machine
end

section
/-! PROOFS. The bus-store family (41_bus_store.md): where a STORE fails. -/

namespace Sys2Proof.Machine

theorem inWindow_false_iff (off len : Nat) : inWindow off len = false ↔ windowSize < off + len := by
  simp [inWindow]

/-- Settles O19: the rejections and the row's own answer are the same FAIL (`State.serve_fail`), and a range past the window
is in no field (`inNoSpan_of_outside`). -/
theorem storeFailureChangesNothing : Obligations.StoreFailureChangesNothing := by
  intro s off len wdata hf hfail hw
  refine State.serve_fail hf (hfail.imp_right (Or.imp_right fun hout => ?_))
  have hwin := (inWindow_false_iff off len).2 hout
  have hfield := (inSomeField_false_iff off len).2 (inNoSpan_of_outside hout)
  simp [hwin, hfield, hw]

end Sys2Proof.Machine
end

section
/-! PROOFS. The tick engine (42_tick_engine.md): one TICK, a row of TICKs, and when the counter advances. -/

namespace Sys2Proof.Machine

/-! ### The comparator, the controller and the halves of a 64-bit value -/

/-- `core.TIP` is driven or held where the condition holds, and cleared elsewhere (42_tick_engine.md R147 to R149). -/
theorem pendingAfter_eq (condition gie tie tip : Bool) :
    pendingAfter condition gie tie tip = if condition then gie && tie || tip else false := by
  cases h : gie && tie <;> simp [pendingAfter, h]

@[simp] theorem loHalf_mtime (s : State) : loHalf s.mtime = s.mtimeLo := loHalf_assemble _ _

@[simp] theorem hiHalf_mtime (s : State) : hiHalf s.mtime = s.mtimeHi := hiHalf_assemble _ _

theorem State.halves_of_mtime {s : State} {hi lo : Word} (h : s.mtime = assemble hi lo) :
    s.mtimeLo = lo ∧ s.mtimeHi = hi := by
  rw [← loHalf_mtime, ← hiHalf_mtime, h, loHalf_assemble, hiHalf_assemble]
  exact ⟨rfl, rfl⟩

theorem assemble_eq_zero_iff (hi lo : Word) : assemble hi lo = 0 ↔ hi = 0 ∧ lo = 0 := by
  simp only [← BitVec.toNat_inj, assemble_toNat, BitVec.ofNat_eq_ofNat, BitVec.toNat_ofNat]
  omega

/-- The carry from the low half into the high one (42_tick_engine.md R144). -/
theorem assemble_add_one_carry (hi : Word) : assemble hi 0xFFFFFFFF + 1 = assemble (hi + 1) 0 := by
  apply BitVec.eq_of_toNat_eq
  simp only [BitVec.toNat_add, assemble_toNat, BitVec.ofNat_eq_ofNat, BitVec.toNat_ofNat]
  omega

theorem assemble_add_one_of_ne (hi : Word) {lo : Word} (h : lo ≠ 0xFFFFFFFF) :
    assemble hi lo + 1 = assemble hi (lo + 1) := by
  have hlo : lo.toNat ≠ 0xFFFFFFFF := fun e => h (BitVec.eq_of_toNat_eq e)
  apply BitVec.eq_of_toNat_eq
  simp only [BitVec.toNat_add, assemble_toNat, BitVec.ofNat_eq_ofNat, BitVec.toNat_ofNat]
  omega

/-! ### One TICK -/

section
variable (s : State)

/-- The prescaler writes the accumulator and, at rollover, both halves of mtime (42_tick_engine.md R142 to R144). -/
theorem State.advance_eq : s.advance = { s with
    acc := if s.acc + 1 = s.divisor then 0 else s.acc + 1
    mtimeLo := loHalf s.advance.mtime
    mtimeHi := hiHalf s.advance.mtime } := by
  rw [State.advance_mtime]
  split
  · exact State.advance_rollover ‹_›
  · rw [loHalf_mtime, hiHalf_mtime]
    exact State.advance_count ‹_›

theorem State.tick_disabled {s : State} (h : s.divisor = 0) : s.tick = s.respond (.irq false) := if_pos h

theorem State.tick_enabled {s : State} (h : s.divisor ≠ 0) : s.tick = s.advance.control := if_neg h

@[simp] theorem State.tick_divisor : s.tick.divisor = s.divisor := by
  unfold State.tick
  split <;> simp

theorem State.tick_ready {s : State} (hs : s.ready) : s.tick.ready := by
  unfold State.tick
  split <;> simpa [State.ready] using hs

theorem State.advance_setInputs (rest : List Input) :
    ({ s with inputs := rest } : State).advance = { s.advance with inputs := rest } := by
  by_cases hr : s.acc + 1 = s.divisor
  · rw [State.advance_rollover hr]
    exact State.advance_rollover (s := { s with inputs := rest }) hr
  · rw [State.advance_count hr]
    exact State.advance_count (s := { s with inputs := rest }) hr

/-- TICK neither reads nor writes what is still to happen. -/
theorem State.tick_setInputs (rest : List Input) :
    ({ s with inputs := rest } : State).tick = { s.tick with inputs := rest } := by
  by_cases hd : s.divisor = 0
  · rw [State.tick_disabled hd]
    exact State.tick_disabled (s := { s with inputs := rest }) hd
  · rw [State.tick_enabled hd, State.tick_enabled (s := { s with inputs := rest }) hd, State.advance_setInputs]
    rfl

end

section
variable {s : State} (hd : s.divisor ≠ 0)
include hd

/-- The comparator sees the updated counter (42_tick_engine.md R145, R146). -/
theorem State.tick_coreTip : s.tick.coreTip =
    pendingAfter (conditionHolds s.tick.mtime s.mtimecmp) s.coreGie s.coreTie s.coreTip := by
  simp [State.tick_enabled hd]

theorem State.tick_response : s.tick.response =
    some (.irq (advisory (conditionHolds s.tick.mtime s.mtimecmp) s.coreGie s.coreTie)) := by
  simp [State.tick_enabled hd]

/-- A TICK at equality with the divisor. -/
theorem State.tick_rollover (h : s.acc + 1 = s.divisor) : s.tick.mtime = s.mtime + 1 ∧ s.tick.acc = 0 := by
  rw [State.tick_enabled hd, State.control_mtime, State.control_acc, State.advance_mtime, State.advance_acc,
    if_pos h, if_pos h]
  exact ⟨rfl, rfl⟩

/-- Any other TICK. -/
theorem State.tick_count (h : s.acc + 1 ≠ s.divisor) : s.tick.mtime = s.mtime ∧ s.tick.acc = s.acc + 1 := by
  rw [State.tick_enabled hd, State.control_mtime, State.control_acc, State.advance_mtime, State.advance_acc,
    if_neg h, if_neg h]
  exact ⟨rfl, rfl⟩

end

/-! ### TICKs in a row -/

theorem step_tick_setInputs {s : State} (hs : s.ready) (rest : List Input) :
    step { s with inputs := .request .tick :: rest } = .next { s.tick with inputs := rest } :=
  (step_tick (s := { s with inputs := .request .tick :: rest }) hs rfl).trans (congrArg _ (s.tick_setInputs rest))

theorem run_ticks_setInputs {s : State} (hs : s.ready) (n : Nat) (rest : List Input) :
    run n { s with inputs := ticks n ++ rest } = .next { State.tick^[n] s with inputs := rest } := by
  induction n generalizing s with
  | zero => rfl
  | succ n ih =>
    have hstep : step { s with inputs := ticks (n + 1) ++ rest } = .next { s.tick with inputs := ticks n ++ rest } :=
      step_tick_setInputs hs (ticks n ++ rest)
    rw [run_succ_of_step hstep, ih (State.tick_ready hs), Function.iterate_succ_apply]

/-- A run of `n` TICKs is `n` times the one TICK, with the inputs consumed. -/
theorem run_ticks {s : State} {n : Nat} {rest : List Input} (hs : s.ready) (h : s.inputs = ticks n ++ rest) :
    run n s = .next { State.tick^[n] s with inputs := rest } := by
  rw [← run_ticks_setInputs hs, ← h]

@[simp] theorem State.iterate_tick_divisor (s : State) (n : Nat) : (State.tick^[n] s).divisor = s.divisor :=
  Function.Iterate.rec (fun t : State => t.divisor = s.divisor) rfl (fun t ht => t.tick_divisor.trans ht) n

section
variable {s : State}

theorem State.iterate_tick_ready (hs : s.ready) (n : Nat) : (State.tick^[n] s).ready :=
  Function.Iterate.rec State.ready hs (fun _ => State.tick_ready) n

/-- With divisor 0 only the answer is written, the same each time (42_tick_engine.md R141). -/
theorem State.iterate_tick_disabled (h : s.divisor = 0) (n : Nat) :
    State.tick^[n] s = { s with response := if n = 0 then s.response else some (.irq false) } := by
  cases n with
  | zero => rfl
  | succ n =>
    have hfix : (s.respond (.irq false)).tick = s.respond (.irq false) := State.tick_disabled h
    rw [Function.iterate_succ_apply, State.tick_disabled h, Function.iterate_fixed hfix]
    rfl

/-- Before the rollover, TICK number `n + 1` rolls over exactly if it is the stated one (42_tick_engine.md R151). -/
theorem State.rollover_iff_ticksToRollover {n : Nat} (hn : n < s.ticksToRollover) :
    s.acc + BitVec.ofNat 64 n + 1 = s.divisor ↔ n + 1 = s.ticksToRollover := by
  have hlt : n < 2 ^ 64 := by
    have := (s.divisor - s.acc - 1).isLt
    unfold State.ticksToRollover at hn
    omega
  have hmod : (BitVec.ofNat 64 n).toNat = n := Nat.mod_eq_of_lt hlt
  calc s.acc + BitVec.ofNat 64 n + 1 = s.divisor
      ↔ BitVec.ofNat 64 n = s.divisor - s.acc - 1 := by
        constructor <;> intro h <;> bv_omega
    _ ↔ n + 1 = s.ticksToRollover := by
        rw [← BitVec.toNat_inj, hmod, State.ticksToRollover, Nat.add_right_cancel_iff]

/-- Fewer TICKs than to the next rollover only advance the accumulator. -/
theorem State.iterate_tick_before_rollover (hd : s.divisor ≠ 0) {n : Nat} (hn : n < s.ticksToRollover) :
    (State.tick^[n] s).mtime = s.mtime ∧ (State.tick^[n] s).acc = s.acc + BitVec.ofNat 64 n := by
  induction n with
  | zero => exact ⟨rfl, (BitVec.add_zero _).symm⟩
  | succ n ih =>
    obtain ⟨hm, ha⟩ := ih (by omega)
    have hne : (State.tick^[n] s).acc + 1 ≠ (State.tick^[n] s).divisor := by
      rw [ha, State.iterate_tick_divisor, Ne, State.rollover_iff_ticksToRollover (by omega)]
      omega
    obtain ⟨hm', ha'⟩ := State.tick_count (by rwa [State.iterate_tick_divisor]) hne
    rw [Function.iterate_succ_apply', hm', ha', hm, ha]
    exact ⟨rfl, by bv_omega⟩

theorem State.iterate_tick_rollover (hd : s.divisor ≠ 0) :
    (State.tick^[s.ticksToRollover] s).mtime = s.mtime + 1 ∧ (State.tick^[s.ticksToRollover] s).acc = 0 := by
  obtain ⟨n, hn⟩ : ∃ n, s.ticksToRollover = n + 1 := ⟨_, rfl⟩
  obtain ⟨hm, ha⟩ := State.iterate_tick_before_rollover hd (n := n) (by omega)
  have hr : (State.tick^[n] s).acc + 1 = (State.tick^[n] s).divisor := by
    rw [ha, State.iterate_tick_divisor, State.rollover_iff_ticksToRollover (by omega), hn]
  obtain ⟨hm', ha'⟩ := State.tick_rollover (by rwa [State.iterate_tick_divisor]) hr
  rw [hn, Function.iterate_succ_apply', hm', ha', hm]
  exact ⟨rfl, rfl⟩

/-! ### The accumulator below the divisor counts modulo it -/

/-- TICK number `n + 1` is `D - acc` or a multiple of `D` after it. -/
theorem dvd_iff_exists_multiple_after {a d n : Nat} (h : a < d) : d ∣ a + n + 1 ↔ ∃ k, n + 1 = d - a + k * d := by
  constructor
  · rintro ⟨k, hk⟩
    cases k with
    | zero => omega
    | succ k => exact ⟨k, by rw [Nat.mul_succ, Nat.mul_comm] at hk; omega⟩
  · rintro ⟨k, hk⟩
    exact ⟨k + 1, by rw [Nat.mul_succ, Nat.mul_comm]; omega⟩

theorem mod_add_one_eq_iff_dvd (x : Nat) {d : Nat} (hd : 0 < d) : x % d + 1 = d ↔ d ∣ x + 1 := by
  obtain ⟨b, rfl⟩ : ∃ b, d = b + 1 := ⟨d - 1, by omega⟩
  rw [Nat.add_right_cancel_iff, Nat.dvd_iff_mod_eq_zero, ← Nat.succ_mod_succ_eq_zero_iff]

theorem mod_add_one_of_not_dvd {x d : Nat} (h : ¬d ∣ x + 1) : (x + 1) % d = x % d + 1 := by
  have hx := Nat.div_add_mod x d
  have hx1 := Nat.div_add_mod (x + 1) d
  rw [Nat.succ_div_of_not_dvd h] at hx1
  omega

theorem State.divisor_ne_zero (hd : 0 < s.divisor.toNat) : s.divisor ≠ 0 :=
  fun h => hd.ne' (congrArg BitVec.toNat h)

section
variable {x : Nat} (hd : 0 < s.divisor.toNat) (hx : s.acc.toNat = x % s.divisor.toNat)
include hd hx

/-- An accumulator below the divisor does not wrap: the next TICK rolls over at a multiple of the divisor. -/
theorem State.rollover_iff_dvd : s.acc + 1 = s.divisor ↔ s.divisor.toNat ∣ x + 1 := by
  have hlt : s.acc.toNat < s.divisor.toNat := hx ▸ Nat.mod_lt x hd
  rw [← mod_add_one_eq_iff_dvd x hd, ← hx]
  constructor <;> intro h <;> bv_omega

theorem State.tick_of_dvd (h : s.divisor.toNat ∣ x + 1) : s.tick.mtime = s.mtime + 1 ∧ s.tick.acc = 0 :=
  State.tick_rollover (State.divisor_ne_zero hd) ((State.rollover_iff_dvd hd hx).2 h)

theorem State.tick_of_not_dvd (h : ¬s.divisor.toNat ∣ x + 1) : s.tick.mtime = s.mtime ∧ s.tick.acc = s.acc + 1 :=
  State.tick_count (State.divisor_ne_zero hd) fun hr => h ((State.rollover_iff_dvd hd hx).1 hr)

/-- One TICK more in the count: the quotient and the remainder follow. -/
theorem State.tick_div_mod {m : DWord} (hm : s.mtime = m + BitVec.ofNat 64 (x / s.divisor.toNat)) :
    s.tick.mtime = m + BitVec.ofNat 64 ((x + 1) / s.divisor.toNat) ∧ s.tick.acc.toNat = (x + 1) % s.divisor.toNat := by
  by_cases h : s.divisor.toNat ∣ x + 1
  · obtain ⟨hm', ha'⟩ := State.tick_of_dvd hd hx h
    rw [hm', ha', hm, Nat.succ_div_of_dvd h, Nat.mod_eq_zero_of_dvd h, BitVec.ofNat_add, BitVec.add_assoc]
    exact ⟨rfl, rfl⟩
  · obtain ⟨hm', ha'⟩ := State.tick_of_not_dvd hd hx h
    have hlt := Nat.mod_lt x hd
    rw [hm', ha', Nat.succ_div_of_not_dvd h, mod_add_one_of_not_dvd h, ← hx]
    exact ⟨hm, by bv_omega⟩

end

/-- The counter and the accumulator are the quotient and the remainder by the divisor (42_tick_engine.md R151). -/
theorem State.iterate_tick_of_acc_lt (h : s.acc.toNat < s.divisor.toNat) (n : Nat) :
    (State.tick^[n] s).mtime = s.mtime + BitVec.ofNat 64 ((s.acc.toNat + n) / s.divisor.toNat) ∧
      (State.tick^[n] s).acc.toNat = (s.acc.toNat + n) % s.divisor.toNat := by
  have hd : 0 < s.divisor.toNat := by omega
  induction n with
  | zero => simp [Nat.div_eq_of_lt h, Nat.mod_eq_of_lt h]
  | succ n ih =>
    obtain ⟨hm, ha⟩ := ih
    rw [Function.iterate_succ_apply', ← Nat.add_assoc, ← State.iterate_tick_divisor s n] at *
    exact State.tick_div_mod hd ha hm

end

/-! ### The obligations -/

/-- Settles O43: the count so far gives the accumulator (`State.iterate_tick_of_acc_lt`), which decides the next TICK. -/
theorem counterAdvancesOncePerDivisorTicks : Obligations.CounterAdvancesOncePerDivisorTicks := by
  intro s n rest hs hlt hin
  obtain ⟨hm, ha⟩ := State.iterate_tick_of_acc_lt hlt n
  have hrun := run_ticks hs hin
  have hdiv := s.iterate_tick_divisor n
  have hready := State.iterate_tick_ready hs n
  generalize State.tick^[n] s = t at *
  refine ⟨_, _, hrun, step_tick_setInputs hready rest, t.tick_divisor.trans hdiv, rfl, hm, ha, ?_⟩
  have hd : 0 < s.divisor.toNat := by omega
  rw [← dvd_iff_exists_multiple_after hlt]
  rw [← hdiv] at ha hd ⊢
  exact ⟨State.tick_of_dvd hd ha, State.tick_of_not_dvd hd ha⟩

/-- Settles O38: the prescaler's writes, then the controller's, field by field. -/
theorem tickIsTheStatedAlgorithm : Obligations.TickIsTheStatedAlgorithm := by
  intro s hs
  rw [exec_tick hs]
  refine ⟨fun hd => by rw [State.tick_disabled hd]; rfl, ?_⟩
  rintro hd _ m c rfl hm rfl
  have hmtime : s.advance.mtime = m := s.advance_mtime.trans hm.symm
  have hcond : conditionHolds m s.mtimecmp = decide (s.mtimecmp.toNat ≤ m.toNat) := by
    rw [Bool.eq_iff_iff, conditionHolds_iff, decide_eq_true_iff]
  rw [State.tick_enabled hd, State.control, State.advance_mtimecmp, hmtime, hcond, pendingAfter_eq, State.advance_eq,
    hmtime]
  simp only [decide_eq_true_eq]
  rfl

/-- Settles O39: a disabled TICK only answers, and the answer is the same each time (`State.iterate_tick_disabled`). -/
theorem disabledTimerIsSteady : Obligations.DisabledTimerIsSteady := by
  refine ⟨fun s => assemble_eq_zero_iff _ _, fun s n rest hs hd hin => ?_⟩
  rw [run_ticks hs hin, State.iterate_tick_disabled hd]

/-- Settles O40: the wrap to 0 is no rollover, because the divisor is not 0, and the carry is that of the sum of halves. -/
theorem rolloverIsByEqualityWithCarryAndWrap : Obligations.RolloverIsByEqualityWithCarryAndWrap := by
  intro s hs hd
  refine ⟨s.tick, exec_tick hs, fun h => (State.tick_rollover hd h).symm, fun h => (State.tick_count hd h).symm,
    fun hmax => ?_, fun h hlo => ?_, fun h hlo => ?_⟩
  · have hwrap : s.acc + 1 = 0 := by rw [hmax]; rfl
    obtain ⟨hm, ha⟩ := State.tick_count hd (hwrap.trans_ne hd.symm)
    exact ⟨ha.trans hwrap, hm⟩
  · refine State.halves_of_mtime ?_
    rw [(State.tick_rollover hd h).1, State.mtime, hlo, assemble_add_one_carry]
  · refine State.halves_of_mtime ?_
    rw [(State.tick_rollover hd h).1, State.mtime, assemble_add_one_of_ne _ hlo]

/-- Settles O41: the controller's outputs on the updated counter (`State.tick_coreTip`, `State.tick_response`). -/
theorem pendingFlagIsSetHeldOrCleared : Obligations.PendingFlagIsSetHeldOrCleared := by
  intro s hs hd
  refine ⟨s.tick, exec_tick hs, ?_⟩
  rw [State.tick_coreTip hd, State.tick_response hd, pendingAfter_eq, advisory]
  refine ⟨fun hle hg ht => ?_, fun hle hgt => ?_, fun hlt => ?_⟩
  · simp [(conditionHolds_iff _ _).2 hle, hg, ht]
  · have hoff : (s.coreGie && s.coreTie) = false := by rwa [Bool.and_eq_false_iff]
    simp [(conditionHolds_iff _ _).2 hle, hoff]
  · have hbelow : conditionHolds s.tick.mtime s.mtimecmp = false := by
      rw [← Bool.not_eq_true, conditionHolds_iff]
      omega
    simp [hbelow]

/-- Settles O42: the accumulator counts up to the last TICK before the rollover (`State.iterate_tick_before_rollover`), and the
next one is it (`State.iterate_tick_rollover`). -/
theorem nextRolloverComesAfterTheStatedTicks : Obligations.NextRolloverComesAfterTheStatedTicks := by
  intro s n rest hs hd hin
  have hrun := run_ticks hs hin
  refine ⟨fun hn => ?_, ?_⟩
  · obtain ⟨hm, ha⟩ := State.iterate_tick_before_rollover hd hn
    exact ⟨_, hrun, hm, ha, s.iterate_tick_divisor n, rfl⟩
  · rintro rfl
    obtain ⟨hm, ha⟩ := State.iterate_tick_rollover hd
    exact ⟨_, hrun, hm, ha, s.iterate_tick_divisor _, rfl⟩

end Sys2Proof.Machine
end

section
/-! PROOFS. ATTACH (43_attach.md): what it binds, and who writes `attached`. -/

namespace Sys2Proof.Machine

/-- `attached` has one writer, ATTACH with core 0 present (43_attach.md R160): the ATTACH that finds no core leaves the
device unattached, and every other operation carries the flag over. -/
theorem Effect.attached_writer {s t : State} {i : Instr} (h : Effect s i t) (ht : t.attached ≠ s.attached) :
    i = .attach true := by
  cases h with
  | bound => rfl
  | _ => simp [State.answerHalf, State.answerWallclock, State.storeHalf] at ht

/-! ### The obligations -/

/-- Settles O8: both answers are the equation of ATTACH on an unattached device (`exec_attach`), and the writer is found
among the ways to a next state. -/
theorem attachBindsTheDeviceAndAloneWritesAttached : Obligations.AttachBindsTheDeviceAndAloneWritesAttached :=
  ⟨fun _ hf ha => ⟨exec_attach hf ha true, exec_attach hf ha false⟩,
    fun _ _ _ h ht => (exec_next h).2.attached_writer ht⟩

end Sys2Proof.Machine
end

section
/-! PROOFS. The exceptions family (60_exceptions.md): what a FAIL leaves, where an instruction and a step fault, and the host
that keeps its duties. -/

namespace Sys2Proof.Machine

/-! ### What an instruction leaves -/

section
variable {s t : State} {i : Instr}

/-- FAIL has one way, on which the response is all that changes (60_exceptions.md R171). -/
theorem Effect.of_fail (h : Effect s i t) (ht : t.response = some .fail) : t = s.respond .fail := by
  cases h with
  | failed => rfl
  | _ => simp [State.answerHalf, State.answerWallclock, State.storeHalf] at ht

/-- No instruction adds or takes an input: the step does (log 1). -/
theorem Effect.inputs (h : Effect s i t) : t.inputs = s.inputs := by
  cases h <;> simp [State.answerHalf, State.answerWallclock, State.storeHalf]

/-- The fatal mark has one writer, the ATTACH that finds no core (43_attach.md R161). -/
theorem Effect.fatal_changed (h : Effect s i t) (ht : t.fatal ≠ s.fatal) : i = .attach false := by
  cases h with
  | stopped => rfl
  | _ => simp [State.answerHalf, State.answerWallclock, State.storeHalf] at ht

end

/-! ### Where an instruction and a step fault -/

section
variable {s : State} {f : Fault}

theorem State.unlessFatal_fault_iff {k : Host.Outcome State Fault Refusal} : s.unlessFatal k = .fault f ↔
    (s.fatal = true ∧ f = .noCore) ∨ (s.fatal = false ∧ k = .fault f) := by
  cases hf : s.fatal <;> simp [State.unlessFatal, hf, eq_comm (a := f)]

theorem State.serve_fault_iff {len : Nat} {row : Bool} {served : State} :
    s.serve len row served = .fault f ↔ s.fatal = true ∧ f = .noCore :=
  ⟨State.serve_fault, fun h => State.unlessFatal_fault_iff.2 (.inl h)⟩

theorem exec_tick_fault_iff : exec .tick s = .fault f ↔
    (s.fatal = true ∧ f = .noCore) ∨ (s.fatal = false ∧ s.attached = false ∧ f = .tickUnattached) := by
  simp only [exec, execTick, State.unlessFatal_fault_iff]
  cases s.attached <;> simp [eq_comm (a := f)]

theorem exec_attach_fault_iff (p : Bool) : exec (.attach p) s = .fault f ↔
    (s.fatal = true ∧ f = .noCore) ∨ (s.fatal = false ∧ s.attached = true ∧ f = .attachTwice) := by
  simp only [exec, execAttach, State.unlessFatal_fault_iff]
  cases s.attached <;> simp [eq_comm (a := f)]

/-- The three model faults (60_exceptions.md R172): a LOAD or STORE row meets the first only. -/
theorem exec_fault_iff {i : Instr} : exec i s = .fault f ↔
    (s.fatal = true ∧ f = .noCore) ∨
      (s.fatal = false ∧ s.attached = false ∧ i = .tick ∧ f = .tickUnattached) ∨
      (s.fatal = false ∧ s.attached = true ∧ (∃ p, i = .attach p) ∧ f = .attachTwice) := by
  cases i with
  | tick => simp [exec_tick_fault_iff]
  | attach p => simp [exec_attach_fault_iff]
  | _ => exact State.serve_fault_iff.trans (by simp)

/-- A step faults where no step is admitted, or where the instruction it runs faults. -/
theorem step_fault_iff : step s = .fault f ↔ (s.fatal = true ∧ f = .noCore) ∨
    (s.fatal = false ∧ ∃ q rest i, s.inputs = .request q :: rest ∧ decode s.attached q = .ok i ∧
      exec i { s with inputs := rest } = .fault f) := by
  constructor
  · intro h
    unfold step at h
    split at h
    · cases h
      exact .inl ⟨‹_›, rfl⟩
    · rename_i hf
      refine .inr ⟨by simpa using hf, ?_⟩
      split at h
      · cases h
      · cases h
      · split at h
        · exact ⟨_, _, _, ‹_›, ‹_›, h⟩
        · cases h
  · rintro (⟨hf, rfl⟩ | ⟨hf, q, rest, i, hin, hd, he⟩)
    · exact if_pos hf
    · rw [step_request hf hin hd, he]

end

/-! ### The host that keeps its duties -/

/-- What an orderly host issues first is an ATTACH with a core, or it is no ATTACH; the rest is orderly on the device that
this leaves (70_reset_and_hazards.md R209). -/
theorem orderly_request {attached : Bool} {r : Request} {rest : List Input}
    (h : orderly attached (.request r :: rest) = true) :
    (r = .attach true ∧ orderly true rest = true) ∨ ((∀ p, r ≠ .attach p) ∧ orderly attached rest = true) := by
  cases r with
  | attach p =>
    simp only [orderly, Bool.and_eq_true, Bool.not_eq_true'] at h
    obtain ⟨⟨_, rfl⟩, hrest⟩ := h
    exact .inl ⟨rfl, hrest⟩
  | load => exact .inr ⟨by simp, h⟩
  | store | tick => exact .inr ⟨by simp, (Bool.and_eq_true_iff.1 h).2⟩
  | fetch | foreign => simp [orderly] at h

/-! ### The obligations -/

/-- Settles O23: a FAIL is one of the ways to a next state, and it only answers (`Effect.of_fail`). -/
theorem failLeavesTheStateAsBefore : Obligations.FailLeavesTheStateAsBefore :=
  fun _ _ _ h ht => (exec_next h).2.of_fail ht

/-- Settles O11: the faulting instruction is TICK or ATTACH (`exec_fault_iff`), and a request is decoded to one of these
only if it is that request. -/
theorem stepFaultsExactlyInTheThreeModelFaults : Obligations.StepFaultsExactlyInTheThreeModelFaults := by
  intro s f
  simp only [step_fault_iff, exec_fault_iff]
  refine or_congr_right ⟨?_, ?_⟩
  · rintro ⟨hf, q, rest, i, hin, hd, ⟨hfatal, _⟩ | ⟨_, ha, rfl, rfl⟩ | ⟨_, ha, ⟨p, rfl⟩, rfl⟩⟩
    · simp [hf] at hfatal
    · cases encode_of_decode hd
      exact .inl ⟨hf, ha, ⟨rest, hin⟩, rfl⟩
    · cases encode_of_decode hd
      exact .inr ⟨hf, ha, ⟨p, rest, hin⟩, rfl⟩
  · rintro (⟨hf, ha, ⟨rest, hin⟩, rfl⟩ | ⟨hf, ha, ⟨p, rest, hin⟩, rfl⟩)
    · exact ⟨hf, _, rest, .tick, hin, rfl, .inr (.inl ⟨hf, ha, rfl, rfl⟩)⟩
    · exact ⟨hf, _, rest, .attach p, hin, rfl, .inr (.inr ⟨hf, ha, ⟨p, rfl⟩, rfl⟩)⟩

/-- An orderly host meets neither a fault nor a refusal at the next step (60_exceptions.md R174). -/
theorem step_completes_of_orderly {s : State} (hf : s.fatal = false) (ho : orderly s.attached s.inputs = true) :
    ∃ t, step s = .next t := by
  cases h : step s with
  | next t => exact ⟨t, rfl⟩
  | fault f =>
    rcases (stepFaultsExactlyInTheThreeModelFaults s f).1 h with
      ⟨hfatal, _⟩ | ⟨_, ha, ⟨rest, hin⟩, _⟩ | ⟨_, ha, ⟨p, rest, hin⟩, _⟩
    · simp [hf] at hfatal
    · simp [ha, hin, orderly] at ho
    · simp [ha, hin, orderly] at ho
  | refused r =>
    obtain ⟨_, rest, ⟨off, len, hin, _⟩ | ⟨kind, hin, _⟩ | ⟨off, len, wdata, hin, hw, _⟩⟩ :=
      (stepRefusesOnlyWhatIsNoOperationOfTheBlock s r).1 h
    · simp [hin, orderly] at ho
    · simp [hin, orderly] at ho
    · simp [hin, orderly, hw] at ho

/-- A step takes one input, and of an orderly host what remains is orderly on a device not fatally stopped. -/
theorem step_keeps_orderly {s t : State} (ho : orderly s.attached s.inputs = true) (h : step s = .next t) :
    t.fatal = false ∧ t.inputs = s.inputs.tail ∧ orderly t.attached t.inputs = true := by
  obtain ⟨hf, ⟨hin, rfl⟩ | ⟨gie, tie, tip, rest, hin, rfl⟩ | ⟨r, rest, i, hin, hd, he⟩⟩ := step_next h
  · exact ⟨hf, by simp [hin], ho⟩
  · rw [hin] at ho
    exact ⟨hf, by simp [hin], ho⟩
  · have heffect := (exec_next he).2
    rw [hin] at ho
    rw [hin, heffect.inputs]
    rcases orderly_request ho with ⟨rfl, hrest⟩ | ⟨hr, hrest⟩
    · cases hd
      obtain ⟨_, _, rfl⟩ := exec_attach_next he
      exact ⟨hf, rfl, hrest⟩
    · have hi : ∀ p, i ≠ .attach p := by
        rintro p rfl
        exact hr p (encode_of_decode hd).symm
      have hattached : t.attached = s.attached := by_contra fun hne => hi true (heffect.attached_writer hne)
      have hfatal : t.fatal = s.fatal := by_contra fun hne => hi false (heffect.fatal_changed hne)
      exact ⟨hfatal.trans hf, rfl, hattached ▸ hrest⟩

/-- Settles O49, by induction on the number of steps: each completes (`step_completes_of_orderly`) and keeps the duties
(`step_keeps_orderly`). -/
theorem orderlyHostIsNeverStopped : Obligations.OrderlyHostIsNeverStopped := by
  intro s n hf ho
  induction n generalizing s with
  | zero => exact ⟨s, rfl, hf, rfl, ho⟩
  | succ n ih =>
    obtain ⟨t, hstep⟩ := step_completes_of_orderly hf ho
    obtain ⟨hft, hin, hot⟩ := step_keeps_orderly ho hstep
    rw [run_succ_of_step hstep, ← List.drop_tail, ← hin]
    exact ih t hft hot

end Sys2Proof.Machine
end

section
/-! PROOFS. The hazards family (70_reset_and_hazards.md): the initialisation order, the three-store compare update, and the
high-low-high read of the counter. -/

namespace Sys2Proof.Machine

/-! ### A whole half stored -/

/-- The four bytes that `ST32` sends are those of its value (30_encoding.md R79, 00_scope.md A5). -/
theorem bytesOfNat_toNat (v : Word) : bytesOfNat 4 v.toNat = readBytes v 0 4 := by
  refine List.map_congr_left fun i _ => BitVec.eq_of_toNat_eq ?_
  simp [byteOf]

/-- All four lanes written leave nothing of the old half (30_encoding.md R73). -/
theorem writeLanes_whole (h v : Word) : writeLanes h 0 4 (readBytes v 0 4) = v := by
  refine word_eq_of_bytes fun j hj => ?_
  have hen : laneEnabled 0 4 j = true := by simpa [laneEnabled] using hj
  rw [byteOf_writeLanes _ _ _ _ hj, newLane, if_pos hen, List.getD_eq_getElem?_getD, Nat.sub_zero,
    readBytes_getElem? v 0 4 hj, Option.getD_some, Nat.zero_add]

theorem State.storeHalf_whole (s : State) (h : Half) (v : Word) :
    s.storeHalf h (fieldSpan (.half h)).1 4 (bytesOfNat 4 v.toNat) = (s.setHalf h v).respond .ok := by
  rw [State.storeHalf, Nat.sub_self, bytesOfNat_toNat, writeLanes_whole]

theorem inField_whole (h : Half) : inField (.half h) (fieldSpan (.half h)).1 4 = true :=
  (inField_half_iff h _ 4).2 (by omega)

/-- What `ST32` at a half's own offset leaves: the half set, OK answered, the request consumed (`step_st32`). -/
def State.st32 (s : State) (h : Half) (v : Word) : State :=
  { (s.setHalf h v).respond .ok with inputs := s.inputs.tail }

@[simp] theorem State.st32_half (s : State) (h k : Half) (v : Word) :
    (s.st32 h v).half k = if k = h then v else s.half k :=
  s.half_setHalf h k v

@[simp] theorem State.st32_acc (s : State) (h : Half) (v : Word) : (s.st32 h v).acc = s.acc := s.setHalf_acc h v

@[simp] theorem State.st32_coreTip (s : State) (h : Half) (v : Word) : (s.st32 h v).coreTip = s.coreTip :=
  s.setHalf_coreTip h v

theorem State.mtime_eq_halves (s : State) : s.mtime = assemble (s.half .mtimeHi) (s.half .mtimeLo) := rfl

theorem State.mtimecmp_eq_halves (s : State) : s.mtimecmp = assemble (s.half .mtimecmpHi) (s.half .mtimecmpLo) := rfl

theorem State.divisor_eq_halves (s : State) : s.divisor = assemble (s.half .divHi) (s.half .divLo) := rfl

/-- `ST32` at a half's own offset completes and sets that half, whatever it held (20_memory.md R60, 30_encoding.md R79). -/
theorem step_st32 {s : State} {rest : List Input} (hs : s.ready) (h : Half) {v : Word}
    (hin : s.inputs = .request (.st32 (fieldSpan (.half h)).1 v) :: rest) :
    step s = .next (s.st32 h v) ∧ (s.st32 h v).ready ∧ (s.st32 h v).inputs = rest := by
  refine ⟨?_, by simpa [State.ready, State.st32] using hs, congrArg List.tail hin⟩
  rw [step_store_half hs (inField_whole h) (bytesOfNat_length 4 v.toNat) hin, State.storeHalf_setInputs,
    State.storeHalf_whole, State.st32, hin, List.tail_cons]

/-! ### `ST32`s in a row -/

/-- The `ST32`s that set these halves to these values, in this order. -/
def st32s (ws : List (Half × Word)) : List Input :=
  ws.map fun w => .request (.st32 (fieldSpan (.half w.1)).1 w.2)

/-- What `ST32`s in a row leave (`run_st32s`). -/
def State.st32s (s : State) (ws : List (Half × Word)) : State :=
  ws.foldl (fun t w => t.st32 w.1 w.2) s

@[simp] theorem State.st32s_acc (s : State) (ws : List (Half × Word)) : (s.st32s ws).acc = s.acc := by
  induction ws generalizing s with
  | nil => rfl
  | cons w ws ih => exact (ih _).trans (s.st32_acc w.1 w.2)

@[simp] theorem State.st32s_coreTip (s : State) (ws : List (Half × Word)) : (s.st32s ws).coreTip = s.coreTip := by
  induction ws generalizing s with
  | nil => rfl
  | cons w ws ih => exact (ih _).trans (s.st32_coreTip w.1 w.2)

/-- A run of `ST32`s completes, each step being the one `ST32`. -/
theorem run_st32s {s : State} {rest : List Input} (hs : s.ready) (ws : List (Half × Word))
    (hin : s.inputs = st32s ws ++ rest) :
    run ws.length s = .next (s.st32s ws) ∧ (s.st32s ws).ready ∧ (s.st32s ws).inputs = rest := by
  induction ws generalizing s with
  | nil => exact ⟨rfl, hs, hin⟩
  | cons w ws ih =>
    obtain ⟨hstep, hready, hinputs⟩ := step_st32 hs w.1 hin
    rw [List.length_cons, run_succ_of_step hstep]
    exact ih hready hinputs

/-! ### The compare value with its low half all ones -/

/-- All ones in the low half puts a value at or above any with the same high half (70_reset_and_hazards.md R204). -/
theorem assemble_le_allOnes (hi lo : Word) : assemble hi lo ≤ assemble hi 0xFFFFFFFF := by
  have := lo.isLt
  simp only [BitVec.le_def, assemble_toNat, BitVec.ofNat_eq_ofNat, BitVec.toNat_ofNat]
  omega

/-! ### The eight bytes of the counter -/

theorem readBytes_add (v : BitVec w) (k a b : Nat) : readBytes v k (a + b) = readBytes v k a ++ readBytes v (k + a) b := by
  simp [readBytes, List.range_add, Nat.add_assoc]

/-- The low bytes of an assembled value are those of its low half, the high ones those of its high half. -/
theorem readBytes_assemble (hi lo : Word) : readBytes (assemble hi lo) 0 8 = readBytes lo 0 4 ++ readBytes hi 0 4 := by
  rw [readBytes_add _ 0 4 4]
  congr 1
  · refine List.map_congr_left fun i hmem => BitVec.extractLsb'_append_eq_of_add_le ?_
    have := List.mem_range.1 hmem
    omega
  · refine List.map_congr_left fun i _ => (BitVec.extractLsb'_append_eq_of_le (by omega)).trans ?_
    rw [byteOf, show 8 * (0 + 4 + i) - 32 = 8 * (0 + i) by omega]

/-- A half is known from its four bytes. -/
theorem word_eq_of_readBytes {v w : Word} (h : readBytes v 0 4 = readBytes w 0 4) : v = w := by
  rw [← writeLanes_whole 0 v, h, writeLanes_whole]

/-! ### The counter between two LOADs -/

/-- A TICK adds at most 1 to the counter, whatever the divisor. -/
theorem State.tick_mtime (s : State) : s.tick.mtime = s.mtime ∨ s.tick.mtime = s.mtime + 1 := by
  by_cases hd : s.divisor = 0
  · exact .inl (by rw [State.tick_disabled hd, State.respond_mtime])
  · by_cases hr : s.acc + 1 = s.divisor
    · exact .inr (State.tick_rollover hd hr).1
    · exact .inl (State.tick_count hd hr).1

theorem State.iterate_tick_mtime (s : State) (n : Nat) :
    ∃ k ≤ n, (State.tick^[n] s).mtime = s.mtime + BitVec.ofNat 64 k := by
  induction n with
  | zero => exact ⟨0, le_rfl, (BitVec.add_zero _).symm⟩
  | succ n ih =>
    obtain ⟨k, hk, hm⟩ := ih
    rw [Function.iterate_succ_apply']
    rcases State.tick_mtime (State.tick^[n] s) with ht | ht
    · exact ⟨k, by omega, ht.trans hm⟩
    · exact ⟨k + 1, by omega, by rw [ht, hm, BitVec.ofNat_add, BitVec.add_assoc]; rfl⟩

/-- A LOAD of a half and then TICKs: the half's bytes are answered, and the counter goes on from where it was. -/
theorem load_then_ticks {s : State} {h : Half} {off len n : Nat} {rest : List Input} (hs : s.ready)
    (hi : inField (.half h) off len = true) (hin : s.inputs = .request (.load off len) :: (ticks n ++ rest)) :
    ∃ a t, step s = .next a ∧ a.response = some (.data (readBytes (s.half h) (off - (fieldSpan (.half h)).1) len)) ∧
      run n a = .next t ∧ t.ready ∧ t.inputs = rest ∧ ∃ k ≤ n, t.mtime = s.mtime + BitVec.ofNat 64 k := by
  have hready : (({ s with inputs := ticks n ++ rest } : State).answerHalf h off len).ready := hs
  exact ⟨_, _, step_load_half hs hi hin, by cases h <;> rfl, run_ticks hready rfl, State.iterate_tick_ready hready n,
    rfl, State.iterate_tick_mtime _ n⟩

/-- Where the high half is the same before and after, it was the same between: the counter cannot come round to it in
so few increments (70_reset_and_hazards.md R208). -/
theorem hiHalf_between {v : DWord} {j k : Nat} (hb : j + k ≤ 2 ^ 64 - 2 ^ 32)
    (h : hiHalf (v + BitVec.ofNat 64 j + BitVec.ofNat 64 k) = hiHalf v) : hiHalf (v + BitVec.ofNat 64 j) = hiHalf v := by
  have := v.isLt
  simp only [hiHalf, ← BitVec.toNat_inj, BitVec.extractLsb'_toNat, Nat.shiftRight_eq_div_pow, BitVec.toNat_add,
    BitVec.toNat_ofNat] at h ⊢
  omega

/-! ### The obligations -/

/-- Settles O44: all ones in the low half is at or above what the high half allows (`assemble_le_allOnes`), before the new
high half is stored and after. -/
theorem threeStoreCompareUpdateIsSafe : Obligations.ThreeStoreCompareUpdateIsSafe := by
  intro s n rest hs hin
  obtain ⟨hst, ht, hint⟩ := step_st32 hs .mtimecmpLo hin
  obtain ⟨htu, hu, hinu⟩ := step_st32 ht .mtimecmpHi hint
  obtain ⟨huv, _, hinv⟩ := step_st32 hu .mtimecmpLo hinu
  refine ⟨_, _, _, hst, htu, huv, ?_, ?_, ?_, by simp, ?_, by simp, hinv⟩
  · simpa [State.mtimecmp_eq_halves] using assemble_le_allOnes (s.half .mtimecmpHi) (s.half .mtimecmpLo)
  · simpa [State.mtimecmp_eq_halves] using assemble_le_allOnes (hiHalf n) (loHalf n)
  · simp [State.mtimecmp_eq_halves]
  · simp [State.mtime_eq_halves]

/-- Settles O45: the TICKs only add to the counter (`load_then_ticks`), so its high half at the low LOAD is the one read
on both sides (`hiHalf_between`). -/
theorem highLowHighReadOfTheCounterIsConsistent : Obligations.HighLowHighReadOfTheCounterIsConsistent := by
  intro s m n rest hs hmn hin
  obtain ⟨a, t, hstep, hhi, hrun, ht, hint, j, hj, hmt⟩ := load_then_ticks (h := .mtimeHi) hs (by decide) hin
  obtain ⟨b, u, hstep', hlo, hrun', hu, hinu, k, hk, hmu⟩ := load_then_ticks (h := .mtimeLo) ht (by decide) hint
  refine ⟨a, t, b, u, _, _, _, _, hstep, hhi, hrun, hstep', hlo, hrun', step_load_half (h := .mtimeHi) hu (by decide) hinu,
    rfl, rfl, fun hagree => ?_⟩
  have hends : u.mtimeHi = s.mtimeHi := word_eq_of_readBytes hagree
  have hbetween : t.mtimeHi = s.mtimeHi := by
    rw [hmt] at hmu
    rw [← hiHalf_mtime, ← hiHalf_mtime, hmu] at hends
    rw [← hiHalf_mtime, ← hiHalf_mtime, hmt]
    exact hiHalf_between (by omega) hends
  have hbytes : readBytes t.mtime 0 8 = readBytes t.mtimeLo 0 4 ++ readBytes s.mtimeHi 0 4 := by
    rw [← hbetween]
    exact readBytes_assemble _ _
  exact hbytes ▸ bytesRead_readBytes t.mtime 0 8

/-- Settles O46: the two runs of `ST32`s set the halves in turn (`run_st32s`), and the values are assembled from them. -/
theorem initialisationOrderSetsTheTimer : Obligations.InitialisationOrderSetsTheTimer := by
  intro s m c d rest hs hin
  obtain ⟨hdisable, ht, hint⟩ := run_st32s hs [(.divLo, 0), (.divHi, 0)] hin
  obtain ⟨hset, _, hinu⟩ := run_st32s ht [(.mtimeLo, loHalf m), (.mtimeHi, hiHalf m), (.mtimecmpLo, loHalf c),
    (.mtimecmpHi, hiHalf c), (.divLo, loHalf d), (.divHi, hiHalf d)] hint
  refine ⟨_, _, hdisable, (assemble_eq_zero_iff 0 0).2 ⟨rfl, rfl⟩, by simp, hset, ?_, ?_, ?_, by simp, by simp, hinu⟩
  · simp [State.st32s, State.mtime_eq_halves]
  · simp [State.st32s, State.mtimecmp_eq_halves]
  · simp [State.st32s, State.divisor_eq_halves]

end Sys2Proof.Machine
end

section
/-! PROOFS. Where the block stops, and the STOREs that write nothing: the fatal mark and its one writer, the refused fetch,
the faults of ATTACH and TICK, and a STORE to the wall-clock field or to no field. -/

namespace Sys2Proof.Machine

/-! ### The fatal mark -/

theorem step_of_fatal {s : State} (h : s.fatal = true) : step s = .fault .noCore :=
  step_fault_iff.2 (.inl ⟨h, rfl⟩)

/-- An instruction is admitted with the mark clear, and only the ATTACH that finds no core sets it (43_attach.md R161). -/
theorem exec_fatal_mark {i : Instr} {s t : State} (h : exec i s = .next t) :
    s.fatal = false ∧ (t.fatal = true → i = .attach false) := by
  obtain ⟨hf, heffect⟩ := exec_next h
  exact ⟨hf, fun ht => heffect.fatal_changed (by simp [ht, hf])⟩

/-! ### The obligations -/

/-- Settles O26: an idle step and the core's change carry the mark over, and an instruction sets it only if it is the
ATTACH with no core (`exec_fatal_mark`), which is decoded from that request alone. -/
theorem onlyTheFailedAttachSetsTheFatalMark : Obligations.OnlyTheFailedAttachSetsTheFatalMark := by
  refine ⟨rfl, fun _ _ _ => exec_fatal_mark, fun s t h => ?_⟩
  obtain ⟨hf, ⟨_, rfl⟩ | ⟨_, _, _, _, _, rfl⟩ | ⟨r, rest, i, hin, hd, he⟩⟩ := step_next h
  · exact ⟨hf, fun ht => by simp [hf] at ht⟩
  · exact ⟨hf, fun ht => by simp [hf] at ht⟩
  · refine ⟨hf, fun ht => ⟨rest, ?_⟩⟩
    cases (exec_fatal_mark he).2 ht
    cases encode_of_decode hd
    exact hin

/-- Settles O6: a fetch is not decoded, and the step refuses what is not (`step_refused_iff`). -/
theorem fetchFromTheWindowIsRefused : Obligations.FetchFromTheWindowIsRefused :=
  fun _ off len rest hf hin => step_refused_iff.2 ⟨hf, .fetch off len, rest, .fetchFromWindow, hin, rfl, rfl⟩

/-- Settles O7: the ATTACH is `exec_attach` with no core, and after it neither a step nor an instruction is admitted. -/
theorem attachWithNoCoreIsFatal : Obligations.AttachWithNoCoreIsFatal :=
  ⟨fun _ hf ha => exec_attach hf ha false, fun _ h => ⟨step_of_fatal h, exec_of_fatal h⟩⟩

/-- Settles O9, by where ATTACH faults (`exec_attach_fault_iff`). -/
theorem secondAttachFaults : Obligations.SecondAttachFaults :=
  fun _ p hf ha => (exec_attach_fault_iff p).2 (.inr ⟨hf, ha, rfl⟩)

/-- Settles O10, by where TICK faults (`exec_tick_fault_iff`): unattached, or after the fatal stop. -/
theorem tickWithNoCoreFaults : Obligations.TickWithNoCoreFaults :=
  fun _ => ⟨fun hf ha => exec_tick_fault_iff.2 (.inr ⟨hf, ha, rfl⟩), fun h => exec_of_fatal h .tick⟩

/-- Settles O17: a rejection and the row's own answer are the same FAIL (`State.serve_fail`), and the row holds. -/
theorem storeToTheWallclockFails : Obligations.StoreToTheWallclockFails := by
  intro s off len wdata hf hc hw
  have hi : inField .wallclock off len = true := hc
  exact State.serve_fail hf (.inr (.inr (by simp [hi, hw])))

/-- Settles O18: the range's own row is the one decoded, and inside the window it answers OK (`exec_store_unmapped`). -/
theorem storeInNoFieldIsANoOpSuccess : Obligations.StoreInNoFieldIsANoOpSuccess := by
  intro s off len wdata hs hl hwin hn hw
  have hin := (inWindow_iff off len).2 hwin
  have hrow := exec_store_unmapped hs hl hn hw
  rwa [hs.1, classify_of_inNoSpan hl hn, if_pos hin, if_pos hin] at hrow

end Sys2Proof.Machine
end
